-- ==== Sys2Proof/Word.lean ====
section
/-!
DEFINITION. The fixed widths of the values that cross the block's interfaces: 00_scope.md R7, R9, R10 (all values unsigned,
bit 0 least significant). Port numbers, times and head words have widths that are parameters (PORT_WIDTH, TIME_WIDTH, and
12 + PORT_WIDTH bits), so they are natural numbers, bounded by WellFormed.
-/
namespace Sys2Proof

/-- The unit of memory, of port data and of pixels, 8 bits (20_memory.md R50). -/
abbrev Byte := BitVec 8

/-- The shift amount, `SHAMT_BITS` = 3 bits (10_state.md R25). -/
abbrev Amount := BitVec 3

/-- The shift-register accumulator, `SHDATA_BITS` = 16 bits (10_state.md R26). -/
abbrev Accumulator := BitVec 16

/-- A trigger set as a mask: bit c is 1 iff channel c is in the set (30_encoding.md R91). -/
abbrev ChannelMask := BitVec 16

end Sys2Proof
end

