-- ==== Sys2Proof/Config.lean ====
section
/-!
DEFINITION. The implementation parameters of 00_scope.md R7: the fixed ones as constants, the OPEN ones as the fields of
`Config` with the defaults of R7; and the free value of the input source (45_port_dispatch.md R221).
-/
namespace Sys2Proof

/-- `MEM_SIZE` = 2^ADDR_WIDTH bytes (00_scope.md R7). -/
abbrev memSize : Nat := 65536

/-- `VRAM_LEN`, the bytes of the VRAM window and of the snapshot (00_scope.md R7). -/
abbrev vramLen : Nat := 7168

/-- `IMG_W`, the picture's width in pixels (00_scope.md R7). -/
abbrev imgW : Nat := 224

/-- `IMG_H`, the picture's height in pixels (00_scope.md R7). -/
abbrev imgH : Nat := 256

/-- `COL_BYTES`, the snapshot bytes of one output column (00_scope.md R7). -/
abbrev colBytes : Nat := 32

/-- `BIT_ORDER`: which bit of a snapshot byte is the lowest of its eight pixels (20_memory.md R54, D9). -/
inductive BitOrder where
  | lsbFirst
  | msbFirst
deriving DecidableEq, Repr

/-- `COL_ORDER`: whether the snapshot's columns run left to right or right to left (44_video_decompress.md R193, D10). -/
inductive ColOrder where
  | ascending
  | descending
deriving DecidableEq, Repr

/-- The OPEN parameters of 00_scope.md R7, each with R7's default; fixed for the run (30_encoding.md R100). -/
structure Config where
  /-- `VRAM_BASE`, D1 -/
  vramBase : Nat := 0x2400
  /-- `PIX_ON`, D2 -/
  pixOn : Byte := 0xFF
  /-- `PIX_OFF`, D2 -/
  pixOff : Byte := 0x00
  /-- `PORT_WIDTH`, D3 -/
  portWidth : Nat := 8
  /-- `INPUT_PORTS`, any number of them, D4 -/
  inputPorts : List Nat := [0, 1, 2]
  /-- `P_SHAMT` (write), D4 -/
  pShamt : Nat := 2
  /-- `P_SND1` (write), D4 -/
  pSnd1 : Nat := 3
  /-- `P_SHDATA` (write), D4 -/
  pShdata : Nat := 4
  /-- `P_SND2` (write), D4 -/
  pSnd2 : Nat := 5
  /-- `P_SHRES` (read), D4 -/
  pShres : Nat := 3
  /-- `P_WDOG` (read and write), D4 -/
  pWdog : Nat := 6
  /-- `STRICT_PORTS`, D5 -/
  strictPorts : Bool := true
  /-- `WDOG_READ`, D6 -/
  wdogRead : Byte := 0x00
  /-- `TIME_WIDTH`, D7 -/
  timeWidth : Nat := 64
  /-- `LASTTIME_RESET`, D8 -/
  lastTimeReset : Nat := 0
  /-- `BIT_ORDER`, D9 -/
  bitOrder : BitOrder := .lsbFirst
  /-- `COL_ORDER`, D10 -/
  colOrder : ColOrder := .ascending
  /-- whether the agent table is enforced; if not, every agent may issue every operation: the two models 00_scope.md R14
  and 60_exceptions.md R258 c allow. The model's own parameter (log entry 10). -/
  enforceAgents : Bool := true
deriving DecidableEq, Repr

/-- The `k`-th member of INPUT_PORTS, counted from 0. Where there is none no word decodes to its read, and the 0 is never
used. -/
def Config.inputPort (c : Config) (k : Nat) : Nat := c.inputPorts.getD k 0

/-- The defaults of 00_scope.md R7, which opcode_table.json and 95_test_vectors.md use. -/
def Config.standard : Config := {}

/-- FREE VALUE: the byte the external input source answers to a read of `port`, as the `draw`-th answer it gives
(45_port_dispatch.md R221, "under no law"; log entry 3). Nothing constrains it. -/
opaque Config.inputByte (port : Nat) (draw : Nat) : Byte

end Sys2Proof
end

