-- ==== Sys2Proof/Syntax.lean ====
section
/-!
DEFINITION. The operations of the block (30_encoding.md R80 to R84): one constructor of `Instr` per row of
opcode_table.json, and one for the input ports beyond the table's three rows, with the operands of R83; and how an agent issues one: a head word and an operand record (R81, R83).
-/
namespace Sys2Proof

/-- Who acts on the block (00_scope.md R13). The input source is not listed: it schedules no step. -/
inductive Agent where
  | cpuSide
  | consumer
  | host
deriving DecidableEq, Repr

/-- The operations, in the order of opcode_table.json. There is no other operation (30_encoding.md R80). -/
inductive Instr where
  /-- read of the first input port -/
  | inInp0
  /-- read of the second input port -/
  | inInp1
  /-- read of the third input port -/
  | inInp2
  /-- read of an input port after the third, number `port`: R221's IN_INP where INPUT_PORTS has more members than the
  opcode table has rows (log entry 2) -/
  | inInpNext (port : Nat)
  /-- read of the shift-result port -/
  | inShres
  /-- read of the watchdog port -/
  | inWdog
  /-- write of the shift-amount port -/
  | outShamt (v : Byte)
  /-- write of the first sound port -/
  | outSnd1 (v : Byte)
  /-- write of the shift-data port -/
  | outShdata (v : Byte)
  /-- write of the second sound port -/
  | outSnd2 (v : Byte)
  /-- write of the watchdog port -/
  | outWdog (v : Byte)
  /-- read of a port outside the read half of the map -/
  | inUnmapped (port : Nat)
  /-- write of a port outside the write half of the map -/
  | outUnmapped (port : Nat) (v : Byte)
  /-- cadence tick with the caller's time -/
  | tick (t : Nat)
  /-- byte read of memory; `a` is any natural (20_memory.md R51) -/
  | memrd (a : Nat)
  /-- byte write of memory; `a` is any natural (20_memory.md R51) -/
  | memwr (a : Nat) (v : Byte)
  /-- block store of an image -/
  | load (offset : Nat) (buffer : List Byte)
  /-- copy of the VRAM window -/
  | snapshot
  /-- decompress the snapshot into the caller's buffer `fb`, row pitch `pitch` -/
  | getframe (pitch : Nat) (fb : List Byte)
  /-- set the quit signal -/
  | setquit
  /-- start of a run -/
  | reset
deriving DecidableEq, Repr

/-- The typed operand record that follows a head word (30_encoding.md R83): an operation takes the fields it has and
leaves the rest at zero or empty. -/
structure Operands where
  /-- TICK's time; the field has `TIME_WIDTH` bits (log entry 2) -/
  time : Nat := 0
  /-- MEMRD's and MEMWR's address -/
  address : Nat := 0
  /-- MEMWR's byte -/
  value : Byte := 0
  /-- LOAD's offset -/
  offset : Nat := 0
  /-- LOAD's bytes -/
  buffer : List Byte := []
  /-- GETFRAME's row pitch -/
  pitch : Nat := 0
  /-- GETFRAME's pixel buffer -/
  frameBuffer : List Byte := []
deriving DecidableEq, Repr

/-- One operation as an agent issues it. -/
structure Request where
  agent : Agent
  head : Nat
  operands : Operands := {}
deriving DecidableEq, Repr

end Sys2Proof
end

