-- ==== Sys2Proof/WellFormed.lean ====
section
/-!
DEFINITION. What the spec requires of parameters (00_scope.md R7, R8) and of an operation's fields (30_encoding.md R83, R84,
45_port_dispatch.md R224, R225).
-/
namespace Sys2Proof

/-- The ports of the read half of the map (30_encoding.md R84). -/
def Config.readPorts (c : Config) : List Nat :=
  c.inputPorts ++ [c.pShres, c.pWdog]

/-- The ports of the write half of the map (30_encoding.md R84). -/
def Config.writePorts (c : Config) : List Nat :=
  [c.pShamt, c.pSnd1, c.pShdata, c.pSnd2, c.pWdog]

/-- The constraints on the parameters: the window lies inside memory (R7), the ports of each direction are pairwise distinct
and every port number is below 2^PORT_WIDTH (R8), the reset value of `lastTime` has TIME_WIDTH bits (10_state.md R29). -/
def Config.wf (c : Config) : Bool :=
  decide (c.vramBase + vramLen ≤ memSize) && decide c.readPorts.Nodup && decide c.writePorts.Nodup &&
  decide (∀ p ∈ c.readPorts ++ c.writePorts, p < 2 ^ c.portWidth) && decide (c.lastTimeReset < 2 ^ c.timeWidth)

/-- An operation is well-formed under `c` when an input-port row has its member of INPUT_PORTS, an unmapped row names a port
that is unmapped and below 2^PORT_WIDTH, and TICK's operand has TIME_WIDTH bits; every other combination of operand values is
an operation (30_encoding.md R83, R84, R97 e). -/
def Instr.wf (c : Config) : Instr → Bool
  | .inInp0 => decide (0 < c.inputPorts.length)
  | .inInp1 => decide (1 < c.inputPorts.length)
  | .inInp2 => decide (2 < c.inputPorts.length)
  | .inInpNext p => (c.inputPorts.drop 3).contains p
  | .inUnmapped p => !c.readPorts.contains p && decide (p < 2 ^ c.portWidth)
  | .outUnmapped p _ => !c.writePorts.contains p && decide (p < 2 ^ c.portWidth)
  | .tick t => decide (t < 2 ^ c.timeWidth)
  | .inShres | .inWdog => true
  | .outShamt _ | .outSnd1 _ | .outShdata _ | .outSnd2 _ | .outWdog _ => true
  | .memrd _ | .memwr _ _ | .load _ _ | .snapshot | .getframe _ _ | .setquit | .reset => true

end Sys2Proof
end

