-- ==== Sys2Proof/Decode.lean ====
section
/-!
DEFINITION. The decoder and the encoder of 30_encoding.md: head-word fields (R81), selectors (R82), port map (R84),
invalid words (R97), the decode procedure (R101) and the dispatch by direction and port (45_port_dispatch.md R220).
-/
namespace Sys2Proof

/-- Why a head word is no operation (30_encoding.md R97 c). -/
inductive InvalidWord where
  /-- `op` is 0xA or more -/
  | selector (op : Nat)
  /-- a CMD head word whose port and data fields are not 0 -/
  | operandBits (low : Nat)
deriving DecidableEq, Repr

/-- The bits below the selector: the port field has PORT_WIDTH bits and the data field 8 (R81, R7; log entry 2). -/
def Config.opShift (c : Config) : Nat := c.portWidth + 8

/-- The operation selector, H[19:16] under PORT_WIDTH = 8 (R81). -/
def headOp (c : Config) (h : Nat) : Nat := h / 2 ^ c.opShift

/-- The port, H[15:8] under PORT_WIDTH = 8 (R81). -/
def headPort (c : Config) (h : Nat) : Nat := h / 2 ^ 8 % 2 ^ c.portWidth

/-- The data byte of an OUT, H[7:0] (R81). -/
def headData (h : Nat) : Byte := BitVec.ofNat 8 h

/-- What a CMD head word must have 0, H[15:0] under PORT_WIDTH = 8 (R81). -/
def headLow (c : Config) (h : Nat) : Nat := h % 2 ^ c.opShift

/-- The operation an IN of `port` is (45_port_dispatch.md R220, the read half). -/
def dispatchIn (c : Config) (port : Nat) : Instr :=
  if c.inputPorts[0]? = some port then .inInp0
  else if c.inputPorts[1]? = some port then .inInp1
  else if c.inputPorts[2]? = some port then .inInp2
  else if (c.inputPorts.drop 3).contains port then .inInpNext port
  else if port = c.pShres then .inShres
  else if port = c.pWdog then .inWdog
  else .inUnmapped port

/-- The operation an OUT of `v` to `port` is (45_port_dispatch.md R220, the write half). -/
def dispatchOut (c : Config) (port : Nat) (v : Byte) : Instr :=
  if port = c.pShamt then .outShamt v
  else if port = c.pSnd1 then .outSnd1 v
  else if port = c.pShdata then .outShdata v
  else if port = c.pSnd2 then .outSnd2 v
  else if port = c.pWdog then .outWdog v
  else .outUnmapped port v

/-- TICK's operand: the TIME_WIDTH bits of the operand record's field (R83; log entry 2). -/
def timeOperand (c : Config) (o : Operands) : Nat := o.time % 2 ^ c.timeWidth

/-- The CMD operation of a selector with its operand record (R82, R83). -/
def decodeCommand (c : Config) (op : Nat) (o : Operands) : Except InvalidWord Instr :=
  if op = 0x2 then .ok (.tick (timeOperand c o))
  else if op = 0x3 then .ok (.memrd o.address)
  else if op = 0x4 then .ok (.memwr o.address o.value)
  else if op = 0x5 then .ok (.load o.offset o.buffer)
  else if op = 0x6 then .ok .snapshot
  else if op = 0x7 then .ok (.getframe o.pitch o.frameBuffer)
  else if op = 0x8 then .ok .setquit
  else if op = 0x9 then .ok .reset
  else .error (.selector op)

/-- The decode procedure of R101, total on all head words. -/
def decode (c : Config) (h : Nat) (o : Operands) : Except InvalidWord Instr :=
  if headOp c h = 0x0 then .ok (dispatchIn c (headPort c h))
  else if headOp c h = 0x1 then .ok (dispatchOut c (headPort c h) (headData h))
  else if 0xA ≤ headOp c h then .error (.selector (headOp c h))
  else if headLow c h ≠ 0 then .error (.operandBits (headLow c h))
  else decodeCommand c (headOp c h) o

/-- The operation of a request. -/
def decodeRequest (c : Config) (r : Request) : Except InvalidWord Instr :=
  decode c r.head r.operands

/-- A head word from its three fields (R81). -/
def headOf (c : Config) (op : Nat) (port : Nat) (data : Byte) : Nat :=
  op * 2 ^ c.opShift + port % 2 ^ c.portWidth * 2 ^ 8 + data.toNat

/-- The words of an operation: its head word and its operand record (R81 to R84). The data field of an IN is written 0. -/
def encode (c : Config) : Instr → Nat × Operands
  | .inInp0 => (headOf c 0x0 (c.inputPort 0) 0, {})
  | .inInp1 => (headOf c 0x0 (c.inputPort 1) 0, {})
  | .inInp2 => (headOf c 0x0 (c.inputPort 2) 0, {})
  | .inInpNext p => (headOf c 0x0 p 0, {})
  | .inShres => (headOf c 0x0 c.pShres 0, {})
  | .inWdog => (headOf c 0x0 c.pWdog 0, {})
  | .outShamt v => (headOf c 0x1 c.pShamt v, {})
  | .outSnd1 v => (headOf c 0x1 c.pSnd1 v, {})
  | .outShdata v => (headOf c 0x1 c.pShdata v, {})
  | .outSnd2 v => (headOf c 0x1 c.pSnd2 v, {})
  | .outWdog v => (headOf c 0x1 c.pWdog v, {})
  | .inUnmapped p => (headOf c 0x0 p 0, {})
  | .outUnmapped p v => (headOf c 0x1 p v, {})
  | .tick t => (headOf c 0x2 0 0, { time := t })
  | .memrd a => (headOf c 0x3 0 0, { address := a })
  | .memwr a v => (headOf c 0x4 0 0, { address := a, value := v })
  | .load offset buffer => (headOf c 0x5 0 0, { offset := offset, buffer := buffer })
  | .snapshot => (headOf c 0x6 0 0, {})
  | .getframe pitch fb => (headOf c 0x7 0 0, { pitch := pitch, frameBuffer := fb })
  | .setquit => (headOf c 0x8 0 0, {})
  | .reset => (headOf c 0x9 0 0, {})

/-- The head word in the low 20 bits of a table word of `nbits` bits: bits at `nbits` and above are 0, and the table's head
words have no bits 20 and up (R81). -/
def headOfTable (nbits w : Nat) : Nat := w % 2 ^ nbits % 2 ^ 20

/-- The operation the decoder reads from a table word under the default parameters, with every operand 0 or empty. -/
def decodeTableWord (nbits w : Nat) : Option Instr :=
  match decode Config.standard (headOfTable nbits w) {} with
  | .ok i => some i
  | .error _ => none

end Sys2Proof
end

