-- ==== Sys2Proof/Machine/State.lean ====
section
/-!
DEFINITION. The block's state (10_state.md R20), its outputs (R42), and the ways a step can stop (60_exceptions.md R250).
-/
namespace Sys2Proof.Machine

/-- Memory as cells: addresses strictly rising, no cell equal to what an unlisted address reads as. -/
abbrev Memory := List Host.Cell

/-- What an unlisted address reads as: the reset value of MEM and SNAP (10_state.md R40, D14, D15). -/
def Memory.background : Byte := 0x00

/-- `phase` (10_state.md R28). -/
inductive Phase where
  | awaitingMid
  | awaitingVBlank
deriving DecidableEq, Repr

/-- `LOCK` (10_state.md R24). -/
inductive LockOwner where
  | free
  | producer
  | consumer
deriving DecidableEq, Repr

/-- The direction half of a port-map key (30_encoding.md R84). -/
inductive Direction where
  | read
  | write
deriving DecidableEq, Repr

/-- The contract violations, the values `fault` can hold (60_exceptions.md R251). -/
inductive Violation where
  | memOutOfRange (a : Nat)
  | loadOverflow (offset n : Nat)
  | unmappedPort (dir : Direction) (port : Nat)
deriving DecidableEq, Repr

/-- The two interrupts (60_exceptions.md R260). -/
inductive Interrupt where
  | mid
  | vblank
deriving DecidableEq, Repr

/-- The four results of TICK (30_encoding.md R94). -/
inductive TickResult where
  | noInterrupt
  | mid
  | vblank
  | quit
deriving DecidableEq, Repr

/-- The two sound ports (42_sound_trigger.md). -/
inductive SoundPort where
  | first
  | second
deriving DecidableEq, Repr

/-- An output event (10_state.md R42). -/
inductive Event where
  /-- a write of a sound port, with the set it returned (may be empty) -/
  | trig (port : SoundPort) (set : ChannelMask)
  /-- a TICK that returned an interrupt -/
  | irq (i : Interrupt)
  /-- a TICK that returned Quit -/
  | quitSeen
  /-- a GETFRAME, with the buffer it returned -/
  | frame (fb : List Byte)
deriving DecidableEq, Repr

/-- What an operation returned to its agent (30_encoding.md R82). -/
inductive Result where
  /-- nothing returned: no operation yet, or the operation raised a violation (60_exceptions.md R256) -/
  | nothing
  /-- the operation waits for the lock and has done nothing (60_exceptions.md R250) -/
  | waiting
  /-- a return without a value -/
  | done
  /-- a byte: IN, MEMRD -/
  | byte (v : Byte)
  /-- a trigger set: OUT -/
  | triggers (set : ChannelMask)
  /-- the result of TICK -/
  | tick (r : TickResult)
  /-- the 7168 bytes of SNAPSHOT -/
  | copy (bytes : List Byte)
  /-- the pixel buffer of GETFRAME -/
  | frame (fb : List Byte)
deriving DecidableEq, Repr

/-- The state. The first eleven fields are the record S of 10_state.md R20; `trace` is the output trace of R42; the last
five are the model's own (log entries 1 to 5). -/
structure State where
  /-- `MEM` (R21) -/
  mem : Memory
  /-- `SNAP` (R23), keyed by its index -/
  snap : Memory
  /-- `LOCK` (R24) -/
  lock : LockOwner
  /-- R25 -/
  shiftAmount : Amount
  /-- R26 -/
  shiftData : Accumulator
  /-- R27, first sound port -/
  prevSnd1 : Byte
  /-- R27, second sound port -/
  prevSnd2 : Byte
  /-- R28 -/
  phase : Phase
  /-- R29 -/
  lastTime : Nat
  /-- R30 -/
  quit : Bool
  /-- R31 -/
  fault : Option Violation
  /-- the output trace, oldest first; no operation reads it (R42) -/
  trace : List Event
  /-- what the last operation returned to its agent -/
  result : Result
  /-- whether an operation has been taken since the run began (60_exceptions.md R258 d) -/
  runStarted : Bool
  /-- how many answers of the input source have been used -/
  draws : Nat
  /-- the operations issued and not yet taken, oldest first (20_memory.md R61) -/
  inbox : List Request
  /-- the parameters, fixed for the run (00_scope.md R7) -/
  cfg : Config
deriving DecidableEq, Repr

/-- How the machine stops with a fault. -/
inductive Fault where
  /-- "terminate the run": an operation was issued to a block whose `fault` is already `v`, so it has no step
  (60_exceptions.md R256). Raised by every operation but RESET. Safe: the spec gives no step here. -/
  | terminated (v : Violation)
deriving DecidableEq, Repr

/-- What the spec gives no meaning (60_exceptions.md R258), and an instruction without a meaning in the model. -/
inductive Refusal where
  /-- no meaning in the model yet; raised by an arm of exec only. Safe. -/
  | notModelled (mnemonic : String)
  /-- `BadFrameBuffer`: GETFRAME with `pitch < 224` or a buffer too short (R258 a). Raised by GETFRAME. Safe. -/
  | badFrameBuffer
  /-- `InvalidWord`: a head word that is no operation (R258 b). Raised by step. Safe. -/
  | invalidWord (head : Nat)
  /-- `WrongAgent`: the agent may not issue the operation and the table is enforced (R258 c). Raised by step. Safe. -/
  | wrongAgent (agent : Agent)
  /-- `SecondReset`: RESET after the run has begun (R258 d). Raised by RESET. Safe. -/
  | secondReset
deriving DecidableEq, Repr

/-- What executing an operation answers. -/
abbrev Answer := Host.Outcome State Fault Refusal

/-- The machine right after reset (10_state.md R40), under the default parameters, with nothing issued. -/
def State.reset : State where
  mem := []
  snap := []
  lock := .free
  shiftAmount := 0
  shiftData := 0x0000
  prevSnd1 := 0x00
  prevSnd2 := 0x00
  phase := .awaitingMid
  lastTime := Config.standard.lastTimeReset
  quit := false
  fault := none
  trace := []
  result := .nothing
  runStarted := false
  draws := 0
  inbox := []
  cfg := Config.standard

end Sys2Proof.Machine
end

