-- ==== Sys2Proof/Machine/Ops.lean ====
section
/-!
DEFINITION. The named operations every meaning is built from: memory (20_memory.md, 40_memory_ops.md), results and events
(00_scope.md R11), fault entry (60_exceptions.md R256), the lock (20_memory.md R62), the input source (45_port_dispatch.md
R221), the start of a run (70_reset_and_hazards.md R290), and who may issue what (00_scope.md R14).
-/
namespace Sys2Proof.Machine

/-! ## Memory -/

/-- The byte at `a`; an unlisted address reads as the background. -/
def Memory.read : Memory → Nat → Byte
  | [], _ => Memory.background
  | (k, x) :: rest, a => if k = a then x else Memory.read rest a

/-- `m` with `b` at `a`; writing the background unlists the address. -/
def Memory.write : Memory → Nat → Byte → Memory
  | [], a, b => if b = Memory.background then [] else [(a, b)]
  | (k, x) :: rest, a, b =>
    if a < k then (if b = Memory.background then (k, x) :: rest else (a, b) :: (k, x) :: rest)
    else if a = k then (if b = Memory.background then rest else (a, b) :: rest)
    else (k, x) :: Memory.write rest a b

/-- The bytes `bs` written at `a`, `a + 1`, ... in ascending order (20_memory.md R52). -/
def Memory.load : Memory → Nat → List Byte → Memory
  | m, _, [] => m
  | m, a, b :: bs => Memory.load (m.write a b) (a + 1) bs

/-- The `n` bytes from `base` on, ascending (40_memory_ops.md R113). -/
def Memory.bytes (m : Memory) (base n : Nat) : List Byte :=
  (List.range n).map fun i => m.read (base + i)

/-- The cells of the `n` bytes from `base` on, keyed from 0: a copy that reads at `i` as `m` reads at `base + i`. -/
def Memory.slice (m : Memory) (base n : Nat) : Memory :=
  (m.filter fun c => decide (base ≤ c.1 ∧ c.1 < base + n)).map fun c => (c.1 - base, c.2)

/-- Addresses strictly rising, from `low` on. -/
def Memory.risingFrom : Nat → Memory → Bool
  | _, [] => true
  | low, (k, _) :: rest => decide (low ≤ k) && Memory.risingFrom (k + 1) rest

/-- The canonical form of a memory of `size` cells: addresses strictly rising and below `size`, no cell at the
background. -/
def Memory.wf (size : Nat) (m : Memory) : Bool :=
  Memory.risingFrom 0 m && m.all fun c => decide (c.1 < size) && decide (c.2 ≠ Memory.background)

/-- The VRAM window as a memory keyed by window index (10_state.md R22). -/
def State.window (s : State) : Memory := s.mem.slice s.cfg.vramBase vramLen

/-! ## Results, events, faults -/

/-- `return v` (00_scope.md R11): the result goes to the issuing agent. The run has begun. -/
def State.respond (r : Result) (s : State) : State := { s with result := r, runStarted := true }

/-- `emit e` (00_scope.md R11, 10_state.md R42). -/
def State.emit (e : Event) (s : State) : State := { s with trace := s.trace ++ [e] }

/-- `S.fault <- v` (60_exceptions.md R256, 2). -/
def State.record (v : Violation) (s : State) : State := { s with fault := some v }

/-- `raise v` (00_scope.md R11, 60_exceptions.md R256): no architectural state but `fault` is written and nothing is
returned. -/
def raise (v : Violation) (s : State) : Answer := .next ((s.record v).respond .nothing)

/-- "if S.fault != none then no step", the implicit first line of every operation of files 40 to 45
(60_exceptions.md R256, 4). -/
def unlessTerminated (s : State) (body : Answer) : Answer :=
  match s.fault with
  | none => body
  | some v => .fault (.terminated v)

/-! ## The lock -/

/-- `acquire(who)`: has a step only when `LOCK = free` (20_memory.md R62). -/
def State.acquire (who : LockOwner) (s : State) : Option State :=
  if s.lock = .free then some { s with lock := who } else none

/-- `release` (20_memory.md R62). -/
def State.release (s : State) : State := { s with lock := .free }

/-- An operation whose `acquire` has no step: it has done nothing and stays issued (60_exceptions.md R250). DESIGN CHOICE (log
entry 9): a waiting TICK has not yet tested `quit`, the time or the phase nor written anything, and begins anew at its next
step, so a SETQUIT during the wait makes it return Quit. -/
def wait (s : State) : Answer := .next (s.respond .waiting)

/-! ## The input source -/

/-- The answer the input source gives now for `port` (45_port_dispatch.md R221). -/
def State.inputAnswer (s : State) (port : Nat) : Byte := Config.inputByte port s.draws

/-- One more answer used: the next read of an input port is a fresh draw (20_memory.md R57). -/
def State.useDraw (s : State) : State := { s with draws := s.draws + 1 }

/-! ## Start of a run -/

/-- Every field of S at its reset value and an empty trace (70_reset_and_hazards.md R290, 10_state.md R40, R44). What is
not the block's stays: the parameters, the operations the agents have issued, the input source. -/
def State.startRun (s : State) : State :=
  { State.reset with
    lastTime := s.cfg.lastTimeReset, cfg := s.cfg, inbox := s.inbox, draws := s.draws }

/-! ## Codes -/

/-- The code of a TICK result (30_encoding.md R94, D21). -/
def TickResult.code : TickResult → Nat
  | .noInterrupt => 0
  | .mid => 1
  | .vblank => 2
  | .quit => 3

/-- The code of a fault value (30_encoding.md R98, D22). -/
def Violation.code : Violation → Nat
  | .memOutOfRange _ => 1
  | .loadOverflow _ _ => 2
  | .unmappedPort _ _ => 3

/-! ## Issuing operations -/

/-- Which agent may issue which operation (00_scope.md R14). -/
def agentMay : Agent → Instr → Bool
  | .cpuSide, .getframe _ _ | .cpuSide, .setquit | .cpuSide, .reset => false
  | .cpuSide, _ => true
  | .consumer, .getframe _ _ | .consumer, .setquit => true
  | .consumer, _ => false
  | .host, .load _ _ | .host, .reset => true
  | .host, _ => false

/-- Whether the block takes `i` from the agent: the table where it is enforced, else every operation from every agent
(00_scope.md R14, 60_exceptions.md R258 c). -/
def admits (c : Config) (a : Agent) (i : Instr) : Bool := !c.enforceAgents || agentMay a i

/-- An agent that may issue `i` (00_scope.md R14). -/
def issuerOf : Instr → Agent
  | .getframe _ _ | .setquit => .consumer
  | .reset => .host
  | _ => .cpuSide

/-- The request of the table word `w` of `nbits` bits, operands 0 or empty, issued by an agent that may issue it. -/
def tableRequest (c : Config) (nbits w : Nat) : Request :=
  { agent :=
      match decode c (headOfTable nbits w) {} with
      | .ok i => issuerOf i
      | .error _ => .cpuSide
    head := headOfTable nbits w }

/-- The request `i` is issued as, by `agent`. -/
def requestOf (c : Config) (agent : Agent) (i : Instr) : Request :=
  { agent := agent, head := (encode c i).1, operands := (encode c i).2 }

/-- After the oldest operation of the inbox has been executed, leaving `rest`: it is taken out, unless it waits. -/
def State.retire (rest : List Request) (s : State) : State :=
  if s.result = .waiting then s else { s with inbox := rest }

/-- An executed operation's answer with the inbox brought up to date. -/
def settle (rest : List Request) : Answer → Answer
  | .next t => .next (t.retire rest)
  | .fault f => .fault f
  | .refused r => .refused r

end Sys2Proof.Machine
end

