-- ==== Sys2Proof/Machine/Operands.lean ====
section
/-!
DEFINITION. Every operand assembly of 30_encoding.md R99, in one place: the shift amount, the accumulator, the shift
result, the channels of a sound port, and the two directions of the map between snapshot bits and pixels.
-/
namespace Sys2Proof.Machine

/-- `amount = data[2:0]` (30_encoding.md R86). -/
def amountOf (v : Byte) : Amount := v.extractLsb' 0 3

/-- `shiftData' = trunc_16((shiftData >> 8) | (zext_16(data) << 8))` (30_encoding.md R87, 41_shift_register.md R131). -/
def pushByte (d : Accumulator) (v : Byte) : Accumulator := (d >>> 8) ||| (v.setWidth 16 <<< 8)

/-- `result = trunc_8(shiftData >> (8 - amount))` (30_encoding.md R88, 41_shift_register.md R132). -/
def shiftResult (d : Accumulator) (a : Amount) : Byte := (d >>> (8 - a.toNat)).setWidth 8

/-- The mask of the channels of a sound port's 8-bit trigger mask `T`: channel `i` for bit i of the first port, `8 + i` for
bit i of the second (30_encoding.md R89, R90; 42_sound_trigger.md R154, R159). -/
def channelsOf : SoundPort → Byte → ChannelMask
  | .first, T => T.setWidth 16
  | .second, T => T.setWidth 16 <<< 8

/-- The bit of a snapshot byte that is its `b`-th pixel from the bottom, and back (44_video_decompress.md R193). -/
def bitOf (o : BitOrder) (b : Nat) : Nat :=
  match o with
  | .lsbFirst => b
  | .msbFirst => 7 - b

/-- The output column of the `c`-th snapshot column, and back (44_video_decompress.md R193). -/
def columnOf (o : ColOrder) (c : Nat) : Nat :=
  match o with
  | .ascending => c
  | .descending => imgW - 1 - c

/-- `X(i)`: the output column of snapshot byte `i` (44_video_decompress.md R193). -/
def pixelX (c : Config) (i : Nat) : Nat := columnOf c.colOrder (i / colBytes)

/-- `Y(i, b)`: the output row of bit `b` of snapshot byte `i` (44_video_decompress.md R193). -/
def pixelY (c : Config) (i b : Nat) : Nat := imgH - 1 - (8 * (i % colBytes) + bitOf c.bitOrder b)

/-- The snapshot byte of pixel (x, y) (44_video_decompress.md R194). -/
def sourceByte (c : Config) (x y : Nat) : Nat := colBytes * columnOf c.colOrder x + (imgH - 1 - y) / 8

/-- The bit, in that byte, of pixel (x, y) (44_video_decompress.md R194). -/
def sourceBit (c : Config) (y : Nat) : Nat := bitOf c.bitOrder ((imgH - 1 - y) % 8)

/-- The place of pixel (x, y) in the caller's buffer (30_encoding.md R96). -/
def cellIndex (pitch x y : Nat) : Nat := y * pitch + x

end Sys2Proof.Machine
end

