-- ==== Sys2Proof/Machine/Flags.lean ====
section
/-!
DEFINITION. The block has no condition flags (10_state.md R34). What it computes bit by bit or decides from its status
bits stands here: the trigger masks of the sound ports (42_sound_trigger.md R150 to R153) and the arm a TICK takes from
`quit`, `lastTime` and `phase` (43_interrupt_cadence.md R170 to R175).
-/
namespace Sys2Proof.Machine

/-- Bit i is 1 iff bit i is 1 in `v` and 0 in `old`: the edge rule (42_sound_trigger.md R152). -/
def risingBits (old v : Byte) : Byte := v &&& ~~~old

/-- Bit 0 only: 1 iff bit 0 is 1 in `v` or in `old`: the level-or rule (42_sound_trigger.md R153). -/
def heldBit (old v : Byte) : Byte := (v ||| old) &&& 0x01

/-- The 8-bit trigger mask of a write of `v` to a sound port whose previous byte is `old` (42_sound_trigger.md R150,
R151). -/
def triggerMask : SoundPort → Byte → Byte → Byte
  | .first, old, v => (risingBits old v &&& 0xFE) ||| heldBit old v
  | .second, old, v => risingBits old v

/-- The trigger set such a write returns. -/
def triggerSet (p : SoundPort) (old v : Byte) : ChannelMask := channelsOf p (triggerMask p old v)

/-- The four arms of TICK (43_interrupt_cadence.md R171 to R174). -/
inductive TickArm where
  | quit
  | unchanged
  | mid
  | endOfScreen
deriving DecidableEq, Repr

/-- The arm a TICK of `t` takes: the tests in the order of 43_interrupt_cadence.md R170. -/
def tickArm (t : Nat) (s : State) : TickArm :=
  if s.quit then .quit
  else if t = s.lastTime then .unchanged
  else
    match s.phase with
    | .awaitingMid => .mid
    | .awaitingVBlank => .endOfScreen

end Sys2Proof.Machine
end

