-- ==== Sys2Proof/Machine/Cadence.lean ====
section
/-!
DEFINITION. The interrupt cadence driver (43_interrupt_cadence.md): TICK and SETQUIT.
-/
namespace Sys2Proof.Machine

/-- The Mid arm's writes (43_interrupt_cadence.md R173). -/
def State.midArm (t : Nat) (s : State) : State :=
  ({ s with lastTime := t, phase := .awaitingVBlank }.emit (.irq .mid)).respond (.tick .mid)

/-- The end-of-screen arm's writes before the lock is taken (43_interrupt_cadence.md R170, R174). -/
def State.beginEndOfScreen (t : Nat) (s : State) : State := { s with lastTime := t, phase := .awaitingMid }

/-- The copy-in: `S.SNAP <- SNAPSHOT()` (43_interrupt_cadence.md R174). -/
def State.copyIn (s : State) : State := { s with snap := s.window }

/-- The end of the end-of-screen arm: emit, return (43_interrupt_cadence.md R170). -/
def State.reportVBlank (s : State) : State := (s.emit (.irq .vblank)).respond (.tick .vblank)

/-- What the end-of-screen arm does after the copy: release, emit, return (43_interrupt_cadence.md R170). -/
def State.finishEndOfScreen (s : State) : State := s.release.reportVBlank

/-- TICK t (43_interrupt_cadence.md R170 to R175), in one atomic step. DESIGN CHOICE (log entry 9): where the lock is held the
whole TICK, its three tests included, is as if not yet begun, and it begins anew when it is taken again; 00_scope.md R12 lets
the steps merge. In the fine-grained form (Machine/Interleaving.lean) the tests and writes come before the wait, as in R170. -/
def execTick (t : Nat) (s : State) : Answer :=
  unlessTerminated s <|
    match tickArm t s with
    | .quit => .next ((s.emit .quitSeen).respond (.tick .quit))
    | .unchanged => .next (s.respond (.tick .noInterrupt))
    | .mid => .next (s.midArm t)
    | .endOfScreen =>
      match s.acquire .producer with
      | none => wait s
      | some held => .next (held.beginEndOfScreen t).copyIn.finishEndOfScreen

/-- SETQUIT (43_interrupt_cadence.md R178). -/
def execSetquit (s : State) : Answer := unlessTerminated s (.next ({ s with quit := true }.respond .done))

end Sys2Proof.Machine
end

