-- ==== Sys2Proof/Machine/MemoryOps.lean ====
section
/-!
DEFINITION. The addressable memory (40_memory_ops.md): LOAD, MEMRD, MEMWR, SNAPSHOT.
-/
namespace Sys2Proof.Machine

/-- LOAD offset, buffer (40_memory_ops.md R110): the check comes before the copy. -/
def execLoad (offset : Nat) (buffer : List Byte) (s : State) : Answer :=
  unlessTerminated s <|
    if memSize < offset + buffer.length then raise (.loadOverflow offset buffer.length) s
    else .next ({ s with mem := s.mem.load offset buffer }.respond .done)

/-- MEMRD a (40_memory_ops.md R111). -/
def execMemrd (a : Nat) (s : State) : Answer :=
  unlessTerminated s <|
    if memSize ≤ a then raise (.memOutOfRange a) s else .next (s.respond (.byte (s.mem.read a)))

/-- MEMWR a, v (40_memory_ops.md R112). -/
def execMemwr (a : Nat) (v : Byte) (s : State) : Answer :=
  unlessTerminated s <|
    if memSize ≤ a then raise (.memOutOfRange a) s
    else .next ({ s with mem := s.mem.write a v }.respond .done)

/-- SNAPSHOT (40_memory_ops.md R113). -/
def execSnapshot (s : State) : Answer :=
  unlessTerminated s (.next (s.respond (.copy (s.mem.bytes s.cfg.vramBase vramLen))))

end Sys2Proof.Machine
end

