-- ==== Sys2Proof/Machine/PortDispatch.lean ====
section
/-!
DEFINITION. The port operations that belong to no unit (45_port_dispatch.md): input ports, watchdog, unmapped ports.
-/
namespace Sys2Proof.Machine

/-- IN_INP `port`: return a draw, write nothing (45_port_dispatch.md R221). -/
def readInput (port : Nat) (s : State) : Answer :=
  unlessTerminated s (.next (s.useDraw.respond (.byte (s.inputAnswer port))))

/-- IN_INP0 (45_port_dispatch.md R221). -/
def execInInp0 (s : State) : Answer := readInput (s.cfg.inputPort 0) s

/-- IN_INP1 (45_port_dispatch.md R221). -/
def execInInp1 (s : State) : Answer := readInput (s.cfg.inputPort 1) s

/-- IN_INP2 (45_port_dispatch.md R221). -/
def execInInp2 (s : State) : Answer := readInput (s.cfg.inputPort 2) s

/-- IN_INP of a port of INPUT_PORTS after the third (45_port_dispatch.md R221; log entry 2). -/
def execInInpNext (port : Nat) (s : State) : Answer := readInput port s

/-- IN_WDOG (45_port_dispatch.md R222). -/
def execInWdog (s : State) : Answer := unlessTerminated s (.next (s.respond (.byte s.cfg.wdogRead)))

/-- OUT_WDOG v: accepted, ignored (45_port_dispatch.md R223). -/
def execOutWdog (_v : Byte) (s : State) : Answer := unlessTerminated s (.next (s.respond (.triggers 0)))

/-- IN_UNMAPPED port (45_port_dispatch.md R224). -/
def execInUnmapped (port : Nat) (s : State) : Answer :=
  unlessTerminated s <|
    if s.cfg.strictPorts then raise (.unmappedPort .read port) s else .next (s.respond (.byte 0x00))

/-- OUT_UNMAPPED port, v (45_port_dispatch.md R225). -/
def execOutUnmapped (port : Nat) (_v : Byte) (s : State) : Answer :=
  unlessTerminated s <|
    if s.cfg.strictPorts then raise (.unmappedPort .write port) s else .next (s.respond (.triggers 0))

end Sys2Proof.Machine
end

