-- ==== Sys2Proof/Machine/Reset.lean ====
section
/-!
DEFINITION. The start of a run (70_reset_and_hazards.md R290).
-/
namespace Sys2Proof.Machine

/-- Whether a run is in progress: it has begun and no contract violation has ended it (60_exceptions.md R256, R259;
log entries 5 and 6). -/
def State.runInProgress (s : State) : Bool := s.runStarted && s.fault.isNone

/-- RESET (70_reset_and_hazards.md R290); a second RESET of a run is refused (60_exceptions.md R258 d), a block whose run a
fault has ended starts a new run (60_exceptions.md R259). -/
def execReset (s : State) : Answer :=
  if s.runInProgress then .refused .secondReset else .next (s.startRun.respond .done)

end Sys2Proof.Machine
end

