-- ==== Sys2Proof/Machine/ShiftRegister.lean ====
section
/-!
DEFINITION. The shift-register peripheral (41_shift_register.md).
-/
namespace Sys2Proof.Machine

/-- OUT_SHAMT v (41_shift_register.md R130). -/
def execOutShamt (v : Byte) (s : State) : Answer :=
  unlessTerminated s (.next ({ s with shiftAmount := amountOf v }.respond (.triggers 0)))

/-- OUT_SHDATA v (41_shift_register.md R131). -/
def execOutShdata (v : Byte) (s : State) : Answer :=
  unlessTerminated s (.next ({ s with shiftData := pushByte s.shiftData v }.respond (.triggers 0)))

/-- IN_SHRES (41_shift_register.md R132). -/
def execInShres (s : State) : Answer :=
  unlessTerminated s (.next (s.respond (.byte (shiftResult s.shiftData s.shiftAmount))))

end Sys2Proof.Machine
end

