-- ==== Sys2Proof/Machine/SoundTrigger.lean ====
section
/-!
DEFINITION. The discrete-sound trigger unit (42_sound_trigger.md).
-/
namespace Sys2Proof.Machine

/-- OUT_SND1 v (42_sound_trigger.md R150). -/
def execOutSnd1 (v : Byte) (s : State) : Answer :=
  let set := triggerSet .first s.prevSnd1 v
  unlessTerminated s (.next (({ s with prevSnd1 := v }.emit (.trig .first set)).respond (.triggers set)))

/-- OUT_SND2 v (42_sound_trigger.md R151). -/
def execOutSnd2 (v : Byte) (s : State) : Answer :=
  let set := triggerSet .second s.prevSnd2 v
  unlessTerminated s (.next (({ s with prevSnd2 := v }.emit (.trig .second set)).respond (.triggers set)))

end Sys2Proof.Machine
end

