-- ==== Sys2Proof/Machine/Video.lean ====
section
/-!
DEFINITION. Video decompression and rotation (44_video_decompress.md): the pixel map, `Decompress` as a function (R192),
the walker (R196), and GETFRAME (R190).
-/
namespace Sys2Proof.Machine

/-- The output byte of one bit (44_video_decompress.md R195). -/
def pixelValue (c : Config) (bit : Bool) : Byte := if bit then c.pixOn else c.pixOff

/-- The output byte of pixel (x, y) (44_video_decompress.md R194, R195). -/
def pixelAt (c : Config) (tmp : Memory) (x y : Nat) : Byte :=
  pixelValue c ((tmp.read (sourceByte c x y)).getLsbD (sourceBit c y))

/-- `Decompress(tmp, pitch, FB)` (44_video_decompress.md R192, R200): the cells of the 224 x 256 pixels are replaced,
every other cell keeps its byte. -/
def decompress (c : Config) (tmp : Memory) (pitch : Nat) (fb : List Byte) : List Byte :=
  fb.mapIdx fun k old =>
    if k % pitch < imgW ∧ k / pitch < imgH then pixelAt c tmp (k % pitch) (k / pitch) else old

/-- The shortest buffer a pitch needs (44_video_decompress.md R199). -/
def frameSize (pitch : Nat) : Nat := (imgH - 1) * pitch + imgW

/-- R199's condition on GETFRAME's operands. -/
def frameBufferOk (pitch : Nat) (fb : List Byte) : Bool :=
  decide (imgW ≤ pitch) && decide (frameSize pitch ≤ fb.length)

/-- What GETFRAME does once its private copy is made and the lock released: decompress, emit, return
(44_video_decompress.md R190). -/
def State.deliverFrame (tmp : Memory) (pitch : Nat) (fb : List Byte) (s : State) : State :=
  (s.emit (.frame (decompress s.cfg tmp pitch fb))).respond (.frame (decompress s.cfg tmp pitch fb))

/-- GETFRAME pitch, FB (44_video_decompress.md R190). -/
def execGetframe (pitch : Nat) (fb : List Byte) (s : State) : Answer :=
  unlessTerminated s <|
    if frameBufferOk pitch fb then
      match s.acquire .consumer with
      | none => wait s
      | some held => .next (held.release.deliverFrame held.snap pitch fb)
    else .refused .badFrameBuffer

/-! ## The walker -/

/-- The walker's registers, local to one GETFRAME (44_video_decompress.md R196, 10_state.md R33 b), and the buffer it
writes. -/
structure Walker where
  src : Nat
  bit : Nat
  col : Nat
  row : Nat
  fb : List Byte
deriving DecidableEq, Repr

/-- The walker before its first step (44_video_decompress.md R196). -/
def walkerStart (fb : List Byte) : Walker := { src := 0, bit := 0, col := 0, row := imgH - 1, fb := fb }

/-- One pass of the loop body (44_video_decompress.md R196), with the two order parameters of R193. -/
def Walker.advance (c : Config) (tmp : Memory) (pitch : Nat) (w : Walker) : Walker :=
  let p := (tmp.read w.src).getLsbD (bitOf c.bitOrder w.bit)
  { src := if w.bit + 1 = 8 then w.src + 1 else w.src
    bit := if w.bit + 1 = 8 then 0 else w.bit + 1
    col := if w.row = 0 then w.col + 1 else w.col
    row := if w.row = 0 then imgH - 1 else w.row - 1
    fb := w.fb.set (cellIndex pitch (columnOf c.colOrder w.col) w.row) (pixelValue c p) }

/-- The loop `while src < 7168`, at most `fuel` passes (44_video_decompress.md R196). -/
def Walker.run (c : Config) (tmp : Memory) (pitch : Nat) : Nat → Walker → Walker
  | 0, w => w
  | fuel + 1, w => if w.src < vramLen then Walker.run c tmp pitch fuel (w.advance c tmp pitch) else w

end Sys2Proof.Machine
end

