-- ==== Sys2Proof/Machine/Dispatch.lean ====
section
/-!
DEFINITION. One arm per operation of opcode_table.json, in the table's order, and one for the input ports beyond its rows.
-/
namespace Sys2Proof.Machine

def exec (i : Instr) (s : State) : Host.Outcome State Fault Refusal :=
  match i with
  | .inInp0 => Sys2Proof.Machine.execInInp0 s
  | .inInp1 => Sys2Proof.Machine.execInInp1 s
  | .inInp2 => Sys2Proof.Machine.execInInp2 s
  | .inInpNext port => Sys2Proof.Machine.execInInpNext port s
  | .inShres => Sys2Proof.Machine.execInShres s
  | .inWdog => Sys2Proof.Machine.execInWdog s
  | .outShamt v => Sys2Proof.Machine.execOutShamt v s
  | .outSnd1 v => Sys2Proof.Machine.execOutSnd1 v s
  | .outShdata v => Sys2Proof.Machine.execOutShdata v s
  | .outSnd2 v => Sys2Proof.Machine.execOutSnd2 v s
  | .outWdog v => Sys2Proof.Machine.execOutWdog v s
  | .inUnmapped port => Sys2Proof.Machine.execInUnmapped port s
  | .outUnmapped port v => Sys2Proof.Machine.execOutUnmapped port v s
  | .tick t => Sys2Proof.Machine.execTick t s
  | .memrd a => Sys2Proof.Machine.execMemrd a s
  | .memwr a v => Sys2Proof.Machine.execMemwr a v s
  | .load offset buffer => Sys2Proof.Machine.execLoad offset buffer s
  | .snapshot => Sys2Proof.Machine.execSnapshot s
  | .getframe pitch fb => Sys2Proof.Machine.execGetframe pitch fb s
  | .setquit => Sys2Proof.Machine.execSetquit s
  | .reset => Sys2Proof.Machine.execReset s

end Sys2Proof.Machine
end

