-- ==== Sys2Proof/Machine/Issue.lean ====
section
/-!
DEFINITION. How one issued operation is taken (20_memory.md R61, 30_encoding.md R101, 00_scope.md R14, 60_exceptions.md
R258 b, c).
-/
namespace Sys2Proof.Machine

/-- The block takes the request `r`, with `rest` issued behind it: decode, the agent table, the operation. DESIGN CHOICE (log
entry 17): which stop comes first is not stated in the spec; an invalid word and an operation of a wrong agent are refused
before the operation begins, so also on a block that a violation has terminated, where only an operation that is valid and
admitted is answered with the fault `terminated`. -/
def takeRequest (r : Request) (rest : List Request) (s : State) : Answer :=
  match decodeRequest s.cfg r with
  | .error _ => .refused (.invalidWord r.head)
  | .ok i => if admits s.cfg r.agent i then settle rest (exec i s) else .refused (.wrongAgent r.agent)

/-- The operations `is` one after the other, each complete before the next begins (20_memory.md R61). -/
def execAll : List Instr → State → Answer
  | [], s => .next s
  | i :: is, s =>
    match exec i s with
    | .next t => execAll is t
    | .fault f => .fault f
    | .refused r => .refused r

end Sys2Proof.Machine
end

