-- ==== Sys2Proof/Machine/Step.lean ====
section
/-!
DEFINITION. One step: the oldest operation issued is taken (20_memory.md R61). With nothing issued nothing changes
(10_state.md R41).
-/
namespace Sys2Proof.Machine

/-- One step of the block. -/
def step (s : State) : Host.Outcome State Fault Refusal :=
  match s.inbox with
  | [] => .next s
  | r :: rest => takeRequest r rest s

/-- `s` with the operation of the table word `w` of `nbits` bits issued ahead of everything else, so that the next step
takes it. -/
def State.withFetchWord (s : State) (nbits w : Nat) : State :=
  { s with inbox := tableRequest s.cfg nbits w :: s.inbox }

end Sys2Proof.Machine
end

