-- ==== Sys2Proof/Machine/Interleaving.lean ====
section
/-!
DEFINITION. The fine-grained form of 20_memory.md R62: the CPU side's end-of-screen copy and the consumer's frame copy
run byte by byte between `acquire` and `release`, each interleaved with the other agent's moves. `step` is the coarse form
of the same rule, in which each copy is one atomic step.
-/
namespace Sys2Proof.Machine

/-- Where the CPU side is: between operations, or inside TICK's end-of-screen arm (43_interrupt_cadence.md R170, R174): tested
and written, waiting to acquire the lock; holding it with `copied` bytes of the window copied in; or, the lock released, about
to emit and return. -/
inductive CpuStage where
  | idle
  | acquiring
  | copyIn (copied : Nat)
  | reporting
deriving DecidableEq, Repr

/-- Where the consumer is: between operations, inside GETFRAME's step 1 with the lock held and `copied` bytes of `tmp`
filled, or inside step 2 with the lock released (44_video_decompress.md R190, R191). -/
inductive ConsumerStage where
  | idle
  | copyOut (pitch : Nat) (fb : List Byte) (tmp : Memory) (copied : Nat)
  | drawing (pitch : Nat) (fb : List Byte) (tmp : Memory)
deriving DecidableEq, Repr

/-- The block with its two execution contexts (00_scope.md R13, 60_exceptions.md R273). -/
structure Contexts where
  block : State
  cpu : CpuStage
  consumer : ConsumerStage
deriving DecidableEq, Repr

/-- One move of one agent: begin an operation, or go on with the one it is in. -/
inductive Move where
  | cpuIssue (i : Instr)
  | cpuAdvance
  | consumerIssue (i : Instr)
  | consumerAdvance
deriving DecidableEq, Repr

/-- Both agents between operations. -/
def Contexts.start (s : State) : Contexts := { block := s, cpu := .idle, consumer := .idle }

/-- The state an operation completes in; none where it has no step (it waits, the block is terminal, or it is refused). -/
def completed : Answer → Option State
  | .next t => if t.result = .waiting then none else some t
  | .fault _ => none
  | .refused _ => none

/-- The CPU side begins `i`: a TICK makes its tests, and on its end-of-screen arm writes `lastTime` and `phase` and goes to
acquire the lock (43_interrupt_cadence.md R170); everything else is atomic (00_scope.md R12). -/
def Contexts.cpuIssue (i : Instr) (c : Contexts) : Option Contexts :=
  if c.cpu = .idle ∧ agentMay .cpuSide i = true then
    match i with
    | .tick t =>
      if c.block.fault = none ∧ tickArm t c.block = .endOfScreen then
        some { c with block := c.block.beginEndOfScreen t, cpu := .acquiring }
      else (completed (exec (.tick t) c.block)).map fun b => { c with block := b }
    | i => (completed (exec i c.block)).map fun b => { c with block := b }
  else none

/-- The CPU side goes on with the end-of-screen arm: takes the lock, where it is free; copies the next byte of the window in;
when all are copied, releases the lock; emits and returns VBlank. SETQUIT meanwhile does not stop it
(70_reset_and_hazards.md R307). -/
def Contexts.cpuAdvance (c : Contexts) : Option Contexts :=
  if c.block.fault = none then
    match c.cpu with
    | .idle => none
    | .acquiring => (c.block.acquire .producer).map fun b => { c with block := b, cpu := .copyIn 0 }
    | .copyIn k =>
      if k < vramLen then
        some { c with
          block := { c.block with snap := c.block.snap.write k (c.block.mem.read (c.block.cfg.vramBase + k)) }
          cpu := .copyIn (k + 1) }
      else some { c with block := c.block.release, cpu := .reporting }
    | .reporting => some { c with block := c.block.reportVBlank, cpu := .idle }
  else none

/-- The consumer begins `i`: GETFRAME with a good buffer takes the lock and starts to copy, everything else is atomic. DESIGN
CHOICE (log entry 9): GETFRAME's check of its operands and its acquire are one move, since the check reads no state. -/
def Contexts.consumerIssue (i : Instr) (c : Contexts) : Option Contexts :=
  if c.consumer = .idle ∧ agentMay .consumer i = true then
    match i with
    | .getframe pitch fb =>
      if c.block.fault = none ∧ frameBufferOk pitch fb = true then
        (c.block.acquire .consumer).map fun b => { c with block := b, consumer := .copyOut pitch fb [] 0 }
      else none
    | i => (completed (exec i c.block)).map fun b => { c with block := b }
  else none

/-- The consumer copies the next byte of SNAP out, or releases the lock when all are copied, or draws its private copy and
returns the picture. DESIGN CHOICE (log entry 9): the drawing, the event and the return are one move, since no other agent sees
the private copy or the buffer. -/
def Contexts.consumerAdvance (c : Contexts) : Option Contexts :=
  if c.block.fault = none then
    match c.consumer with
    | .idle => none
    | .copyOut pitch fb tmp k =>
      if k < vramLen then
        some { c with consumer := .copyOut pitch fb (tmp.write k (c.block.snap.read k)) (k + 1) }
      else some { c with block := c.block.release, consumer := .drawing pitch fb tmp }
    | .drawing pitch fb tmp => some { c with block := c.block.deliverFrame tmp pitch fb, consumer := .idle }
  else none

/-- One move; none where the agent has no step (20_memory.md R62: an agent whose `acquire` has no step waits). -/
def Contexts.move (m : Move) (c : Contexts) : Option Contexts :=
  match m with
  | .cpuIssue i => c.cpuIssue i
  | .cpuAdvance => c.cpuAdvance
  | .consumerIssue i => c.consumerIssue i
  | .consumerAdvance => c.consumerAdvance

/-- A run of moves, in the order of the interleaving (20_memory.md R61). -/
def Contexts.moves : List Move → Contexts → Option Contexts
  | [], c => some c
  | m :: ms, c => (c.move m).bind (Contexts.moves ms)

end Sys2Proof.Machine
end

