-- ==== Sys2Proof/Machine/Script.lean ====
section
/-!
DEFINITION. The script lines of 30_encoding.md R102 as data, and the pseudo-operations of R103. Of R102 the text itself
(comments, the bases of numbers, `->`) is notation and is not modelled.
-/
namespace Sys2Proof.Machine

/-- SHIFTW hi, lo (30_encoding.md R103). -/
def shiftw (hi lo : Byte) : List Instr := [.outShdata lo, .outShdata hi]

/-- WINDOW hi, lo, n (30_encoding.md R103). -/
def shiftWindow (hi lo n : Byte) : List Instr := .outShamt n :: (shiftw hi lo ++ [.inShres])

/-- PULSE p, m (30_encoding.md R103). -/
def pulse (c : Config) (p : Nat) (m : Byte) : List Instr := [dispatchOut c p m, dispatchOut c p 0x00]

/-- FRAME t1, t2 (30_encoding.md R103). -/
def frameTicks (t1 t2 : Nat) : List Instr := [.tick t1, .tick t2]

/-- What a script line says (30_encoding.md R102, R103). The caller's buffer, which a line does not write out, is an operand
of GETFRAME here as in R83. -/
inductive ScriptOp where
  | portIn (p : Nat)
  | portOut (p : Nat) (v : Byte)
  | tick (t : Nat)
  | memrd (a : Nat)
  | memwr (a : Nat) (v : Byte)
  | load (offset : Nat) (buffer : List Byte)
  | snapshot
  | getframe (pitch : Nat) (fb : List Byte)
  | setquit
  | reset
  | shiftw (hi lo : Byte)
  | window (hi lo n : Byte)
  | pulse (p : Nat) (m : Byte)
  | frame (t1 t2 : Nat)
deriving DecidableEq, Repr

/-- A line of a script: whether it is prefixed `C:`, and what it says (30_encoding.md R102). -/
structure ScriptLine where
  consumer : Bool := false
  op : ScriptOp
deriving DecidableEq, Repr

/-- The operations a line stands for, under the port map of `c` (30_encoding.md R84, R102, R103). -/
def expandScriptOp (c : Config) : ScriptOp → List Instr
  | .portIn p => [dispatchIn c p]
  | .portOut p v => [dispatchOut c p v]
  | .tick t => [.tick t]
  | .memrd a => [.memrd a]
  | .memwr a v => [.memwr a v]
  | .load offset buffer => [.load offset buffer]
  | .snapshot => [.snapshot]
  | .getframe pitch fb => [.getframe pitch fb]
  | .setquit => [.setquit]
  | .reset => [.reset]
  | .shiftw hi lo => shiftw hi lo
  | .window hi lo n => shiftWindow hi lo n
  | .pulse p m => pulse c p m
  | .frame t1 t2 => frameTicks t1 t2

/-- Who issues a line: the consumer where it is prefixed `C:`, else the CPU side (30_encoding.md R102), and for RESET the
host, the only agent that may (00_scope.md R14). -/
def scriptAgent (l : ScriptLine) : Agent :=
  if l.consumer then .consumer else if l.op = .reset then .host else .cpuSide

/-- The requests a script puts into the inbox, line by line. -/
def scriptRequests (c : Config) (ls : List ScriptLine) : List Request :=
  ls.flatMap fun l => (expandScriptOp c l.op).map (requestOf c (scriptAgent l))

end Sys2Proof.Machine
end

