-- ==== Sys2Proof/Safety.lean ====
section
/-!
DEFINITION. The terms claims are stated in: which operation writes which field (10_state.md R20), the invariants of the
block (R45, 43_interrupt_cadence.md R176, R182) and of the fine-grained form (20_memory.md R62 to R64).
-/
namespace Sys2Proof.Machine

/-- The fields of the state a claim about frames ranges over. `result` and `runStarted` are written by every operation. -/
inductive Field where
  | mem | snap | lock | shiftAmount | shiftData | prevSnd1 | prevSnd2 | phase | lastTime | quit | fault | trace | draws
  | inbox | cfg
deriving DecidableEq, Repr

/-- Two states agree on a field. -/
abbrev Field.agree (s t : State) : Field → Prop
  | .mem => t.mem = s.mem
  | .snap => t.snap = s.snap
  | .lock => t.lock = s.lock
  | .shiftAmount => t.shiftAmount = s.shiftAmount
  | .shiftData => t.shiftData = s.shiftData
  | .prevSnd1 => t.prevSnd1 = s.prevSnd1
  | .prevSnd2 => t.prevSnd2 = s.prevSnd2
  | .phase => t.phase = s.phase
  | .lastTime => t.lastTime = s.lastTime
  | .quit => t.quit = s.quit
  | .fault => t.fault = s.fault
  | .trace => t.trace = s.trace
  | .draws => t.draws = s.draws
  | .inbox => t.inbox = s.inbox
  | .cfg => t.cfg = s.cfg

/-- The fields an operation may leave changed (10_state.md R20, column "written by"). TICK and GETFRAME also take and
release LOCK: at an operation's end it is as it was. -/
def writtenBy : Instr → List Field
  | .inInp0 | .inInp1 | .inInp2 | .inInpNext _ => [.draws]
  | .inShres | .inWdog | .outWdog _ | .snapshot => []
  | .outShamt _ => [.shiftAmount]
  | .outSnd1 _ => [.prevSnd1, .trace]
  | .outShdata _ => [.shiftData]
  | .outSnd2 _ => [.prevSnd2, .trace]
  | .inUnmapped _ | .outUnmapped _ _ | .memrd _ => [.fault]
  | .tick _ => [.snap, .phase, .lastTime, .trace]
  | .memwr _ _ | .load _ _ => [.mem, .fault]
  | .getframe _ _ => [.trace]
  | .setquit => [.quit]
  | .reset =>
    [.mem, .snap, .lock, .shiftAmount, .shiftData, .prevSnd1, .prevSnd2, .phase, .lastTime, .quit, .fault, .trace]

/-- The operations of the port space (30_encoding.md R84). -/
def isPortOperation : Instr → Bool
  | .inInp0 | .inInp1 | .inInp2 | .inInpNext _ | .inShres | .inWdog | .inUnmapped _ => true
  | .outShamt _ | .outSnd1 _ | .outShdata _ | .outSnd2 _ | .outWdog _ | .outUnmapped _ _ => true
  | .tick _ | .memrd _ | .memwr _ _ | .load _ _ | .snapshot | .getframe _ _ | .setquit | .reset => false

/-- The operations of the memory contract (40_memory_ops.md). -/
def isMemoryOperation : Instr → Bool
  | .load _ _ | .memrd _ | .memwr _ _ | .snapshot => true
  | .inInp0 | .inInp1 | .inInp2 | .inInpNext _ | .inShres | .inWdog | .inUnmapped _ => false
  | .outShamt _ | .outSnd1 _ | .outShdata _ | .outSnd2 _ | .outWdog _ | .outUnmapped _ _ => false
  | .tick _ | .getframe _ _ | .setquit | .reset => false

/-- An answer with every next state changed by `f`. -/
def mapNext (f : State → State) : Answer → Answer
  | .next t => .next (f t)
  | .fault v => .fault v
  | .refused r => .refused r

/-! ## Invariants of the block -/

/-- The parameters meet R7 and R8, both memories have their canonical form, `lastTime` has TIME_WIDTH bits and the lock is
free. -/
def State.storesOk (s : State) : Bool :=
  s.cfg.wf && s.mem.wf memSize && s.snap.wf vramLen && decide (s.lastTime < 2 ^ s.cfg.timeWidth) &&
  decide (s.lock = .free)

/-- The interrupts of a trace, oldest first. -/
def interruptsOf : List Event → List Interrupt
  | [] => []
  | .irq i :: rest => i :: interruptsOf rest
  | .trig _ _ :: rest => interruptsOf rest
  | .quitSeen :: rest => interruptsOf rest
  | .frame _ :: rest => interruptsOf rest

/-- The interrupt a block in `phase` reports next (10_state.md R28). -/
def Phase.next : Phase → Interrupt
  | .awaitingMid => .mid
  | .awaitingVBlank => .vblank

/-- The phase after that interrupt (43_interrupt_cadence.md R175). -/
def Phase.toggle : Phase → Phase
  | .awaitingMid => .awaitingVBlank
  | .awaitingVBlank => .awaitingMid

/-- The phase after the interrupts `is` reported from `p` on, none if they do not alternate from `p.next` on. -/
def phaseAfter : Phase → List Interrupt → Option Phase
  | p, [] => some p
  | p, i :: is => if i = p.next then phaseAfter p.toggle is else none

/-- The interrupts reported so far are Mid, VBlank, Mid, ... and `phase` says which comes next
(43_interrupt_cadence.md R176). -/
def State.cadenceOk (s : State) : Bool :=
  decide (phaseAfter .awaitingMid (interruptsOf s.trace) = some s.phase)

/-- No interrupt stands after a Quit in the trace (43_interrupt_cadence.md R182). -/
def quietAfterQuit : List Event → Bool
  | [] => true
  | .quitSeen :: rest => (interruptsOf rest).isEmpty && quietAfterQuit rest
  | .irq _ :: rest => quietAfterQuit rest
  | .trig _ _ :: rest => quietAfterQuit rest
  | .frame _ :: rest => quietAfterQuit rest

/-- Once a TICK has returned Quit the signal is set, and no interrupt follows (43_interrupt_cadence.md R171, R182). -/
def State.quitOk (s : State) : Bool :=
  (!s.trace.contains .quitSeen || s.quit) && quietAfterQuit s.trace

/-! ## Invariants of the fine-grained form -/

/-- The CPU side holds the lock while it copies in, and at no other stage. -/
def CpuStage.holdsLock : CpuStage → Bool
  | .copyIn _ => true
  | .idle | .acquiring | .reporting => false

/-- The consumer holds the lock while it copies out, and at no other stage. -/
def ConsumerStage.holdsLock : ConsumerStage → Bool
  | .copyOut _ _ _ _ => true
  | .idle | .drawing _ _ _ => false

/-- Who holds the lock when the agents stand at `cpu` and `consumer`; none where both would hold it. -/
def expectedOwner (cpu : CpuStage) (consumer : ConsumerStage) : Option LockOwner :=
  match cpu.holdsLock, consumer.holdsLock with
  | false, false => some .free
  | true, false => some .producer
  | false, true => some .consumer
  | true, true => none

/-- The lock is held by the agent that copies and by no other, and never across the drawing (20_memory.md R62). -/
def Contexts.lockOk (c : Contexts) : Prop := expectedOwner c.cpu c.consumer = some c.block.lock

/-- What a copy under way has copied so far is the source as it stands now: a copy is of one instant
(20_memory.md R63, R64). -/
def Contexts.copiesOk (c : Contexts) : Prop :=
  (∀ k, c.cpu = .copyIn k →
    k ≤ vramLen ∧ ∀ j, j < k → c.block.snap.read j = c.block.mem.read (c.block.cfg.vramBase + j)) ∧
  (∀ pitch fb tmp k, c.consumer = .copyOut pitch fb tmp k →
    k ≤ vramLen ∧ ∀ j, j < k → tmp.read j = c.block.snap.read j)

/-- Both memories, and the consumer's private copy, have their canonical form. -/
def Contexts.storesOk (c : Contexts) : Prop :=
  c.block.mem.wf memSize = true ∧ c.block.snap.wf vramLen = true ∧
  (∀ pitch fb tmp k, c.consumer = .copyOut pitch fb tmp k → tmp.wf vramLen = true)

/-- The invariant of the fine-grained form. -/
def Contexts.ok (c : Contexts) : Prop := c.lockOk ∧ c.copiesOk ∧ c.storesOk

end Sys2Proof.Machine
end

