-- ==== Sys2Proof/Certificates/Slice0/Obligations.lean ====
section
/-!
DEFINITION. The statements about the block, from the numbered rules of spec/. A next state is written out whole, as the
state before with the fields the rule writes, so that each equation is also the operation's frame; `result` and
`runStarted` are the model's own fields (log entries 4 and 5) and are written by every operation.
-/
open Sys2Proof Sys2Proof.Machine

/-! ## Reset, step, decode -/

/-- 10_state.md section 5: every field of S at its reset value. The values of MEM, SNAP, shiftAmount, shiftData, prevSnd1,
prevSnd2 and lastTime are decisions of the spec (D8, D14 to D17); AwaitingMid is the source's. -/
def Obligations.ResetLeavesTheResetValues : Prop :=
  (∀ a, State.reset.mem.read a = 0x00) ∧ (∀ i, State.reset.snap.read i = 0x00) ∧ State.reset.lock = .free ∧
  State.reset.shiftAmount = 0 ∧ State.reset.shiftData = 0x0000 ∧ State.reset.prevSnd1 = 0x00 ∧
  State.reset.prevSnd2 = 0x00 ∧ State.reset.phase = .awaitingMid ∧ State.reset.lastTime = 0 ∧
  State.reset.quit = false ∧ State.reset.fault = none

/-- The state after reset meets the invariants that the three headline statements say every step keeps, and the two
contexts standing at it meet the fine-grained one. -/
def Obligations.ResetStateMeetsTheInvariants : Prop :=
  State.reset.storesOk = true ∧ State.reset.cadenceOk = true ∧ State.reset.quitOk = true ∧
  (Contexts.start State.reset).ok

/-- The canonical form of both memories, the parameters' constraints (R7, R8), the width of `lastTime` (R29) and the free lock
survive every step. -/
def Obligations.StoresStayCanonical : Prop :=
  ∀ s t : State, s.storesOk = true → step s = .next t → t.storesOk = true

/-- 43_interrupt_cadence.md R176: in every trace the interrupts are Mid, VBlank, Mid, ..., and `phase` names the next. -/
def Obligations.InterruptsAlternate : Prop :=
  ∀ s t : State, s.cadenceOk = true → step s = .next t → t.cadenceOk = true

/-- 43_interrupt_cadence.md R171, R182: after a Quit in the trace there is no interrupt, and the signal stays set. -/
def Obligations.NoInterruptAfterQuit : Prop :=
  ∀ s t : State, s.quitOk = true → step s = .next t → t.quitOk = true

/-- A step is exec of the decoded operation, which is then taken out of the inbox unless it waits. -/
def Obligations.StepTakesTheOldestOperation : Prop :=
  ∀ (s : State) (r : Request) (rest : List Request) (i : Instr),
    s.inbox = r :: rest → decodeRequest s.cfg r = .ok i → i.wf s.cfg = true → admits s.cfg r.agent i = true →
    step s =
      match exec i s with
      | .next t => .next { t with inbox := if t.result = .waiting then t.inbox else rest }
      | .fault f => .fault f
      | .refused x => .refused x

/-- 10_state.md R41: nothing changes on its own. -/
def Obligations.NothingIssuedNothingChanges : Prop :=
  ∀ s : State, s.inbox = [] → step s = .next s

/-- 60_exceptions.md R258 b, c: an invalid head word, and an operation from an agent the table of 00_scope.md R14 does not
allow, are refused by name where the table is enforced. That the check stands in `step` is the model's choice (log entry 10),
and so is that these two refusals come first also on a block that a violation has terminated, where the spec gives no order
of the stops (log entry 17). -/
def Obligations.StepRefusesInvalidWordsAndWrongAgents : Prop :=
  ∀ (s : State) (r : Request) (rest : List Request), s.inbox = r :: rest →
    (∀ e, decodeRequest s.cfg r = .error e → step s = .refused (.invalidWord r.head)) ∧
    (∀ i, decodeRequest s.cfg r = .ok i → s.cfg.enforceAgents = true → agentMay r.agent i = false →
      step s = .refused (.wrongAgent r.agent))

/-- 30_encoding.md R97 c, R101: a head word is invalid exactly when its selector is 0xA or more, or it is a CMD word with
other bits than the selector set, under any parameters and operands. Under PORT_WIDTH = 8 the selector is H[19:16] and those
bits are H[15:0]; for other widths the layout is log entry 2's. -/
def Obligations.InvalidWordsAreTheReservedOnes : Prop :=
  (∀ (c : Config) (h : Nat) (o : Operands),
    (∃ e, decode c h o = .error e) ↔
      (0xA * 2 ^ (c.portWidth + 8) ≤ h ∨ (0x2 * 2 ^ (c.portWidth + 8) ≤ h ∧ h % 2 ^ (c.portWidth + 8) ≠ 0))) ∧
  ∀ (c : Config) (h : Nat) (o : Operands), c.portWidth = 8 →
    ((∃ e, decode c h o = .error e) ↔ (0xA0000 ≤ h ∨ (0x20000 ≤ h ∧ h % 0x10000 ≠ 0)))

/-- Words written out from the head-word column of 30_encoding.md R84 and the selectors of R82: every row of the port map but
the first two, and every CMD selector. -/
def Obligations.SampleWordsDecode : Prop :=
  decode Config.standard 0x00200 {} = .ok .inInp2 ∧
  decode Config.standard 0x00300 {} = .ok .inShres ∧
  decode Config.standard 0x00600 {} = .ok .inWdog ∧
  decode Config.standard 0x0040F {} = .ok (.inUnmapped 4) ∧
  decode Config.standard 0x102FF {} = .ok (.outShamt 0xFF) ∧
  decode Config.standard 0x10321 {} = .ok (.outSnd1 0x21) ∧
  decode Config.standard 0x10480 {} = .ok (.outShdata 0x80) ∧
  decode Config.standard 0x10511 {} = .ok (.outSnd2 0x11) ∧
  decode Config.standard 0x10612 {} = .ok (.outWdog 0x12) ∧
  decode Config.standard 0x1FF01 {} = .ok (.outUnmapped 0xFF 0x01) ∧
  decode Config.standard 0x20000 { time := 5 } = .ok (.tick 5) ∧
  decode Config.standard 0x30000 { address := 65535 } = .ok (.memrd 65535) ∧
  decode Config.standard 0x40000 { address := 70000, value := 1 } = .ok (.memwr 70000 1) ∧
  decode Config.standard 0x50000 { offset := 3, buffer := [1, 2] } = .ok (.load 3 [1, 2]) ∧
  decode Config.standard 0x60000 {} = .ok .snapshot ∧
  decode Config.standard 0x70000 { pitch := 224 } = .ok (.getframe 224 []) ∧
  decode Config.standard 0x80000 {} = .ok .setquit ∧
  decode Config.standard 0x90000 {} = .ok .reset

/-- Decode of encode is the operation, for every well-formed operation under every legal choice of the parameters. -/
def Obligations.DecodeOfEncodeIsTheOperation : Prop :=
  ∀ (c : Config) (i : Instr), c.wf = true → i.wf c = true → decode c (encode c i).1 (encode c i).2 = .ok i

/-- The other direction: what the decoder reads is well-formed and encodes to the word it was read from, but for the
ignored data field of an IN (30_encoding.md R81, R97 b). -/
def Obligations.EncodeOfDecodeIsTheWord : Prop :=
  ∀ (c : Config) (h : Nat) (o : Operands) (i : Instr), decode c h o = .ok i →
    i.wf c = true ∧
    (encode c i).1 = if h < 2 ^ (c.portWidth + 8) then h / 256 * 256 else h

/-- 30_encoding.md R85: the unmapped ports under the default map, direction by direction. -/
def Obligations.UnmappedPortsOfTheDefaultMap : Prop :=
  ∀ (p : Nat) (v : Byte),
    (dispatchIn Config.standard p = .inUnmapped p ↔ p = 4 ∨ p = 5 ∨ 7 ≤ p) ∧
    (dispatchOut Config.standard p v = .outUnmapped p v ↔ p = 0 ∨ p = 1 ∨ 7 ≤ p)

/-! ## Port operations -/

/-- 45_port_dispatch.md section on IN_INP, with its head words: the input source's answer, whatever it is, for every member of
INPUT_PORTS; no field of S is written. That the answer is the free byte at the counter `draws`, which advances, is the model's
choice (log entry 3), as is the row of a member after the third (log entry 2). A write of such a port number is no input-port
access. -/
def Obligations.InputPortReadsReturnADraw : Prop :=
  decode Config.standard 0x00000 {} = .ok .inInp0 ∧ decode Config.standard 0x00100 {} = .ok .inInp1 ∧
  decode Config.standard 0x00200 {} = .ok .inInp2 ∧
  decode { inputPorts := [0, 1, 2, 7] } 0x00700 {} = .ok (.inInpNext 7) ∧
  (∀ v, dispatchOut Config.standard 0 v = .outUnmapped 0 v ∧ dispatchOut Config.standard 1 v = .outUnmapped 1 v ∧
    dispatchOut Config.standard 2 v = .outShamt v) ∧
  ∀ (s : State) (p : Nat), s.fault = none →
    (s.cfg.inputPorts[0]? = some p → exec .inInp0 s = .next { s with
      draws := s.draws + 1, result := .byte (Config.inputByte p s.draws), runStarted := true }) ∧
    (s.cfg.inputPorts[1]? = some p → exec .inInp1 s = .next { s with
      draws := s.draws + 1, result := .byte (Config.inputByte p s.draws), runStarted := true }) ∧
    (s.cfg.inputPorts[2]? = some p → exec .inInp2 s = .next { s with
      draws := s.draws + 1, result := .byte (Config.inputByte p s.draws), runStarted := true }) ∧
    exec (.inInpNext p) s = .next { s with
      draws := s.draws + 1, result := .byte (Config.inputByte p s.draws), runStarted := true }

/-- 41_shift_register.md R132, with its head word: trunc_8(shiftData >> (8 - shiftAmount)), in natural numbers; no state is
written. -/
def Obligations.ShiftResultReadIsTheWindow : Prop :=
  decode Config.standard 0x00300 {} = .ok .inShres ∧
  ∀ (s : State), s.fault = none →
    ∃ b : Byte, exec .inShres s = .next { s with result := .byte b, runStarted := true } ∧
      b.toNat = s.shiftData.toNat / 2 ^ (8 - s.shiftAmount.toNat) % 256

/-- 41_shift_register.md R130, with its head word. -/
def Obligations.ShiftAmountWriteKeepsThreeBits : Prop :=
  ∀ (v : Byte),
    decode Config.standard (0x10200 + v.toNat) {} = .ok (.outShamt v) ∧
    ∀ (s : State), s.fault = none →
      ∃ a : Amount, a.toNat = v.toNat % 8 ∧
        exec (.outShamt v) s = .next { s with shiftAmount := a, result := .triggers 0, runStarted := true }

/-- 41_shift_register.md R131, with its head word: the byte becomes the high byte, the old high byte the low byte. -/
def Obligations.ShiftDataWritePushesTheByte : Prop :=
  ∀ (v : Byte),
    decode Config.standard (0x10400 + v.toNat) {} = .ok (.outShdata v) ∧
    ∀ (s : State), s.fault = none →
      ∃ d : Accumulator, d.toNat = v.toNat * 256 + s.shiftData.toNat / 256 ∧
        exec (.outShdata v) s = .next { s with shiftData := d, result := .triggers 0, runStarted := true }

/-- 42_sound_trigger.md R150, R153, with its head word: channels 1 to 7 fire on a rising bit, channel 0 when its bit is or
was set, channels 8 to 15 never; the set is emitted and returned; the byte is kept. -/
def Obligations.FirstSoundPortWriteTriggers : Prop :=
  ∀ (v : Byte),
    decode Config.standard (0x10300 + v.toNat) {} = .ok (.outSnd1 v) ∧
    ∀ (s : State), s.fault = none →
      ∃ set : ChannelMask,
        (∀ i, set.getLsbD i = (decide (i < 8) &&
          if i = 0 then v.getLsbD 0 || s.prevSnd1.getLsbD 0 else v.getLsbD i && !s.prevSnd1.getLsbD i)) ∧
        exec (.outSnd1 v) s = .next { s with
          prevSnd1 := v, trace := s.trace ++ [.trig .first set], result := .triggers set, runStarted := true }

/-- 42_sound_trigger.md section on OUT_SND2, with its head word: channel 8 + i fires on a rising bit i, bit 0 included. That
bit i of this port is channel 8 + i is the spec's own decision D20 (R154; log entry 14). -/
def Obligations.SecondSoundPortWriteTriggers : Prop :=
  ∀ (v : Byte),
    decode Config.standard (0x10500 + v.toNat) {} = .ok (.outSnd2 v) ∧
    ∀ (s : State), s.fault = none →
      ∃ set : ChannelMask,
        (∀ i, set.getLsbD i = (decide (8 ≤ i) && (v.getLsbD (i - 8) && !s.prevSnd2.getLsbD (i - 8)))) ∧
        exec (.outSnd2 v) s = .next { s with
          prevSnd2 := v, trace := s.trace ++ [.trig .second set], result := .triggers set, runStarted := true }

/-- 42_sound_trigger.md R155: whether a port's channel i fires depends only on bit i of the new byte and of that port's
previous byte; every subset of a port's eight channels can fire on one write, returned as one set; a write of one port
leaves the other's previous byte alone. That the second port's channels are 8 + i is the spec's own decision D20 (R154; log
entry 14). -/
def Obligations.SoundLanesAreIndependent : Prop :=
  (∀ (v v' : Byte) (s s' : State) (i : Nat), s.fault = none → s'.fault = none → v.getLsbD i = v'.getLsbD i →
    (s.prevSnd1.getLsbD i = s'.prevSnd1.getLsbD i →
      ∃ t t' m m', exec (.outSnd1 v) s = .next t ∧ exec (.outSnd1 v') s' = .next t' ∧
        t.result = .triggers m ∧ t'.result = .triggers m' ∧ m.getLsbD i = m'.getLsbD i) ∧
    (s.prevSnd2.getLsbD i = s'.prevSnd2.getLsbD i →
      ∃ t t' m m', exec (.outSnd2 v) s = .next t ∧ exec (.outSnd2 v') s' = .next t' ∧
        t.result = .triggers m ∧ t'.result = .triggers m' ∧ m.getLsbD (8 + i) = m'.getLsbD (8 + i))) ∧
  (∀ (s : State) (T : Byte), s.fault = none → ∃ (old v : Byte) (t t' : State),
    exec (.outSnd1 v) { s with prevSnd1 := old } = .next t ∧ t.result = .triggers (T.setWidth 16) ∧
    exec (.outSnd2 v) { s with prevSnd2 := old } = .next t' ∧ t'.result = .triggers (T.setWidth 16 <<< 8)) ∧
  (∀ (v : Byte) (s t : State), exec (.outSnd1 v) s = .next t → t.prevSnd2 = s.prevSnd2) ∧
  (∀ (v : Byte) (s t : State), exec (.outSnd2 v) s = .next t → t.prevSnd1 = s.prevSnd1)

/-- 45_port_dispatch.md section on IN_WDOG: the byte is the parameter WDOG_READ (the spec's decision D6). -/
def Obligations.WatchdogReadReturnsTheParameter : Prop :=
  ∀ (s : State), s.fault = none →
    exec .inWdog s = .next { s with result := .byte s.cfg.wdogRead, runStarted := true }

/-- 45_port_dispatch.md R223, with its head word: accepted, ignored, whatever the byte and the port treatment. -/
def Obligations.WatchdogWriteDoesNothing : Prop :=
  ∀ (v : Byte),
    decode Config.standard (0x10600 + v.toNat) {} = .ok (.outWdog v) ∧
    ∀ (s : State), s.fault = none →
      exec (.outWdog v) s = .next { s with result := .triggers 0, runStarted := true }

/-- 45_port_dispatch.md section on IN_UNMAPPED (the spec's decision D5): the entry of the violation in strict mode, the
byte 0x00 in production mode. -/
def Obligations.UnmappedReadFaultsOrReturnsZero : Prop :=
  ∀ (p : Nat) (s : State), s.fault = none →
    (s.cfg.strictPorts = true → exec (.inUnmapped p) s = .next { s with
      fault := some (.unmappedPort .read p), result := .nothing, runStarted := true }) ∧
    (s.cfg.strictPorts = false → exec (.inUnmapped p) s = .next { s with
      result := .byte 0x00, runStarted := true })

/-- 45_port_dispatch.md section on OUT_UNMAPPED (the spec's decision D5): the entry of the violation in strict mode, the
empty set in production mode. -/
def Obligations.UnmappedWriteFaultsOrDoesNothing : Prop :=
  ∀ (p : Nat) (v : Byte) (s : State), s.fault = none →
    (s.cfg.strictPorts = true → exec (.outUnmapped p v) s = .next { s with
      fault := some (.unmappedPort .write p), result := .nothing, runStarted := true }) ∧
    (s.cfg.strictPorts = false → exec (.outUnmapped p v) s = .next { s with
      result := .triggers 0, runStarted := true })

/-! ## Cadence -/

/-- 43_interrupt_cadence.md, the quit arm: Quit for every time and phase; that no field of S is written is the spec's
decision D25. -/
def Obligations.TickReportsQuit : Prop :=
  ∀ (t : Nat) (s : State), s.fault = none → s.quit = true →
    exec (.tick t) s = .next { s with
      trace := s.trace ++ [.quitSeen], result := .tick .quit, runStarted := true }

/-- 43_interrupt_cadence.md R172: the test is equality with `lastTime`, and the arm changes no state of S. -/
def Obligations.TickWithUnchangedTimeDoesNothing : Prop :=
  ∀ (t : Nat) (s : State), s.fault = none → s.quit = false →
    (t = s.lastTime →
      exec (.tick t) s = .next { s with result := .tick .noInterrupt, runStarted := true }) ∧
    (∀ u, t ≠ s.lastTime → exec (.tick t) s = .next u → u.result ≠ .tick .noInterrupt)

/-- 43_interrupt_cadence.md R173: writes `lastTime` and `phase` and nothing else, whoever holds the lock. -/
def Obligations.TickReportsMid : Prop :=
  ∀ (t : Nat) (s : State), s.fault = none → s.quit = false → t ≠ s.lastTime → s.phase = .awaitingMid →
    exec (.tick t) s = .next { s with
      lastTime := t, phase := .awaitingVBlank, trace := s.trace ++ [.irq .mid], result := .tick .mid,
      runStarted := true }

/-- 43_interrupt_cadence.md, the end-of-screen arm: writes `lastTime`, `phase` and all of SNAP, which becomes what SNAPSHOT
returns; where the lock is held it waits. That a waiting TICK has written no field of S yet is the model's choice (log
entry 9). -/
def Obligations.TickReportsVBlankAndTakesTheSnapshot : Prop :=
  ∀ (t : Nat) (s : State), s.fault = none → s.quit = false → t ≠ s.lastTime → s.phase = .awaitingVBlank →
    (s.lock = .free →
      ∃ m : Memory,
        exec (.tick t) s = .next { s with
          lastTime := t, phase := .awaitingMid, snap := m, trace := s.trace ++ [.irq .vblank],
          result := .tick .vblank, runStarted := true } ∧
        (∀ i, i < 7168 → m.read i = s.mem.read (s.cfg.vramBase + i)) ∧
        exec .snapshot s = .next { s with result := .copy (m.bytes 0 7168), runStarted := true }) ∧
    (s.lock ≠ .free → exec (.tick t) s = .next { s with result := .waiting, runStarted := true })

/-- 43_interrupt_cadence.md R182, from every fresh state: the first time-changed tick returns Mid, the second VBlank with
the snapshot updated, a tick of the same time after either of them NoInterrupt, and after SETQUIT every tick Quit. -/
def Obligations.FreshCadence : Prop :=
  ∀ (s : State) (t₁ t₂ : Nat), s.fault = none → s.quit = false → s.phase = .awaitingMid → s.lock = .free →
    t₁ ≠ s.lastTime → t₂ ≠ t₁ →
    ∃ u₁ v₁ u₂ u₃ u₄ : State,
      exec (.tick t₁) s = .next u₁ ∧ u₁.result = .tick .mid ∧ u₁.snap = s.snap ∧
      exec (.tick t₁) u₁ = .next v₁ ∧ v₁.result = .tick .noInterrupt ∧
      exec (.tick t₂) u₁ = .next u₂ ∧ u₂.result = .tick .vblank ∧
      (∀ i, i < 7168 → u₂.snap.read i = s.mem.read (s.cfg.vramBase + i)) ∧
      exec (.tick t₂) u₂ = .next u₃ ∧ u₃.result = .tick .noInterrupt ∧
      exec .setquit u₃ = .next u₄ ∧
      ∀ ts : List Nat, ∃ u, execAll (ts.map .tick) u₄ = .next u ∧ u.fault = none ∧
        ∀ t, ∃ w, exec (.tick t) u = .next w ∧ w.result = .tick .quit

/-- 43_interrupt_cadence.md R178, with its head word: sets the signal and touches nothing else, whoever holds the lock; from
then on every TICK returns Quit, and every other operation (RESET apart) does what it did before and leaves it set. -/
def Obligations.SetquitSetsTheSignal : Prop :=
  decode Config.standard 0x80000 {} = .ok .setquit ∧
  ∀ (s : State), s.fault = none →
    exec .setquit s = .next { s with quit := true, result := .done, runStarted := true } ∧
    (∀ t, ∃ u, exec (.tick t) { s with quit := true } = .next u ∧ u.result = .tick .quit ∧ u.quit = true) ∧
    ∀ i : Instr, (∀ t, i ≠ .tick t) → i ≠ .reset →
      exec i { s with quit := true } = mapNext (fun t => { t with quit := true }) (exec i s)

/-- 43_interrupt_cadence.md R176, first sentence, with 10_state.md R28: `phase` changes only in a TICK that returns Mid or
VBlank, and each change toggles it. -/
def Obligations.PhaseChangesOnlyByToggling : Prop :=
  ∀ (i : Instr) (s t : State), i ≠ .reset → exec i s = .next t → t.phase ≠ s.phase →
    t.phase = s.phase.toggle ∧ ∃ time, i = .tick time ∧ time ≠ s.lastTime ∧ t.lastTime = time ∧
      s.quit = false ∧ t.trace = s.trace ++ [.irq s.phase.next]

/-- 43_interrupt_cadence.md R177: no operation but TICK (and RESET) reads or writes `phase` or `lastTime`: in a state that
differs in those two, every other operation does the same and leaves them as they were. -/
def Obligations.NothingElseTouchesTheCadence : Prop :=
  ∀ (i : Instr) (s : State) (p : Phase) (l : Nat), (∀ t, i ≠ .tick t) → i ≠ .reset →
    exec i { s with phase := p, lastTime := l } =
      mapNext (fun t => { t with phase := p, lastTime := l }) (exec i s)

/-! ## Memory -/

/-- 40_memory_ops.md R111, with its head word: the byte at `a`, or the violation with nothing read; `a` = 65535 is the last
in range. -/
def Obligations.MemrdReturnsTheByteOrFaults : Prop :=
  ∀ (a : Nat), decode Config.standard 0x30000 { address := a } = .ok (.memrd a) ∧
  ∀ (s : State), s.fault = none →
    (a < 65536 →
      exec (.memrd a) s = .next { s with result := .byte (s.mem.read a), runStarted := true }) ∧
    (65536 ≤ a →
      exec (.memrd a) s = .next { s with
        fault := some (.memOutOfRange a), result := .nothing, runStarted := true })

/-- 40_memory_ops.md R112, with its head word: the cell `a` holds `v`, every other cell what it held; or the violation with
no cell written. -/
def Obligations.MemwrStoresTheByteOrFaults : Prop :=
  ∀ (a : Nat) (v : Byte), decode Config.standard 0x40000 { address := a, value := v } = .ok (.memwr a v) ∧
  ∀ (s : State), s.fault = none →
    (a < 65536 →
      ∃ m : Memory,
        exec (.memwr a v) s = .next { s with mem := m, result := .done, runStarted := true } ∧
        (s.mem.wf 65536 = true → m.wf 65536 = true ∧ m.read a = v) ∧
        (∀ b, b ≠ a → m.read b = s.mem.read b)) ∧
    (65536 ≤ a →
      exec (.memwr a v) s = .next { s with
        fault := some (.memOutOfRange a), result := .nothing, runStarted := true })

/-- 40_memory_ops.md, LOAD: byte k of the buffer at offset + k, every other cell as it was; or the violation with no byte
copied (the spec's decision D24). -/
def Obligations.LoadCopiesTheBufferOrFaults : Prop :=
  ∀ (offset : Nat) (buffer : List Byte) (s : State), s.fault = none →
    (offset + buffer.length ≤ 65536 →
      ∃ m : Memory,
        exec (.load offset buffer) s = .next { s with mem := m, result := .done, runStarted := true } ∧
        (s.mem.wf 65536 = true → m.wf 65536 = true ∧
          ∀ k, (h : k < buffer.length) → m.read (offset + k) = buffer[k]) ∧
        (∀ b, b < offset ∨ offset + buffer.length ≤ b → m.read b = s.mem.read b)) ∧
    (65536 < offset + buffer.length →
      exec (.load offset buffer) s = .next { s with
        fault := some (.loadOverflow offset buffer.length), result := .nothing, runStarted := true })

/-- 40_memory_ops.md R113, with its head word: the 7168 bytes of the window, in order; no state of S is written, SNAP
included. -/
def Obligations.SnapshotReturnsTheWindow : Prop :=
  decode Config.standard 0x60000 {} = .ok .snapshot ∧
  ∀ (s : State), s.fault = none →
    ∃ bytes : List Byte,
      exec .snapshot s = .next { s with result := .copy bytes, runStarted := true } ∧
      bytes.length = 7168 ∧ ∀ i, i < 7168 → bytes[i]? = some (s.mem.read (s.cfg.vramBase + i))

/-- 40_memory_ops.md R114: no memory operation changes the other units' state, and no port operation changes MEM. -/
def Obligations.MemoryOperationsArePassive : Prop :=
  ∀ (i : Instr) (s t : State), exec i s = .next t →
    (isMemoryOperation i = true →
      t.shiftData = s.shiftData ∧ t.shiftAmount = s.shiftAmount ∧ t.prevSnd1 = s.prevSnd1 ∧
      t.prevSnd2 = s.prevSnd2 ∧ t.phase = s.phase ∧ t.lastTime = s.lastTime ∧ t.quit = s.quit ∧
      t.snap = s.snap ∧ t.lock = s.lock) ∧
    (isPortOperation i = true → t.mem = s.mem)

/-! ## Video -/

/-- 44_video_decompress.md, GETFRAME (operands: the spec's decision D31; the refusal: D11): the picture of SNAP is
emitted and returned and no field of S is written; where the lock is held it waits; a bad buffer is refused. -/
def Obligations.GetframeDrawsTheSnapshot : Prop :=
  ∀ (pitch : Nat) (fb : List Byte) (s : State), s.fault = none →
    (224 ≤ pitch → 255 * pitch + 224 ≤ fb.length → s.lock = .free →
      exec (.getframe pitch fb) s = .next { s with
        trace := s.trace ++ [.frame (decompress s.cfg s.snap pitch fb)],
        result := .frame (decompress s.cfg s.snap pitch fb), runStarted := true }) ∧
    (224 ≤ pitch → 255 * pitch + 224 ≤ fb.length → s.lock ≠ .free →
      exec (.getframe pitch fb) s = .next { s with result := .waiting, runStarted := true }) ∧
    (pitch < 224 ∨ fb.length < 255 * pitch + 224 → exec (.getframe pitch fb) s = .refused .badFrameBuffer)

/-- 44_video_decompress.md, the coordinate map (bit and column order: the spec's decisions D9, D10): bit b of snapshot
byte i is the pixel (X, Y), for every choice of the parameters. -/
def Obligations.DecompressPlacesEveryBit : Prop :=
  ∀ (c : Config) (tmp : Memory) (pitch : Nat) (fb : List Byte) (i b : Nat),
    224 ≤ pitch → 255 * pitch + 224 ≤ fb.length → i < 7168 → b < 8 →
    let X := if c.colOrder = .ascending then i / 32 else 223 - i / 32
    let Y := 255 - (8 * (i % 32) + if c.bitOrder = .lsbFirst then b else 7 - b)
    (decompress c tmp pitch fb)[Y * pitch + X]? =
      some (if (tmp.read i).getLsbD b then c.pixOn else c.pixOff)

/-- 44_video_decompress.md, cells not written (the spec's decision D11): padding and everything past the last pixel keep
their bytes, and the buffer keeps its length. -/
def Obligations.DecompressKeepsOtherCells : Prop :=
  ∀ (c : Config) (tmp : Memory) (pitch : Nat) (fb : List Byte), 224 ≤ pitch →
    (decompress c tmp pitch fb).length = fb.length ∧
    ∀ k, 224 ≤ k % pitch ∨ 255 * pitch + 224 ≤ k → (decompress c tmp pitch fb)[k]? = fb[k]?

/-- 44_video_decompress.md, the inverse map: the two maps are inverse to each other, so each is a bijection between the
57344 bits and the 57344 pixels, for every choice of the order parameters. -/
def Obligations.PixelMapsAreInverse : Prop :=
  ∀ c : Config,
    (∀ i b, i < 7168 → b < 8 →
      pixelX c i < 224 ∧ pixelY c i b < 256 ∧
      sourceByte c (pixelX c i) (pixelY c i b) = i ∧ sourceBit c (pixelY c i b) = b) ∧
    (∀ x y, x < 224 → y < 256 →
      sourceByte c x y < 7168 ∧ sourceBit c y < 8 ∧
      pixelX c (sourceByte c x y) = x ∧ pixelY c (sourceByte c x y) (sourceBit c y) = y)

/-- 44_video_decompress.md, the walker: the sequential machine ends after 57344 passes with its registers at
(7168, 0, 224, 255), and the buffer it has written is the one `decompress` gives. -/
def Obligations.WalkerComputesTheMap : Prop :=
  ∀ (c : Config) (tmp : Memory) (pitch : Nat) (fb : List Byte) (fuel : Nat),
    224 ≤ pitch → 255 * pitch + 224 ≤ fb.length → 57344 ≤ fuel →
    Walker.run c tmp pitch fuel (walkerStart fb) =
      { src := 7168, bit := 0, col := 224, row := 255, fb := decompress c tmp pitch fb }

/-- 44_video_decompress.md section 5, the source's round-trip property, with the default orders (D9, D10) and pixel values
(D2): a snapshot with one bit set gives one lit pixel, where the map says. -/
def Obligations.OneBitLightsOnePixel : Prop :=
  ∀ (i b x y pitch : Nat) (fb : List Byte), i < 7168 → b < 8 → x < 224 → y < 256 →
    224 ≤ pitch → 255 * pitch + 224 ≤ fb.length →
    (decompress Config.standard [(i, BitVec.ofNat 8 (2 ^ b))] pitch fb)[y * pitch + x]? =
      some (if x = i / 32 ∧ y = 255 - 8 * (i % 32) - b then 0xFF else 0x00)

/-! ## Faults and the whole machine -/

/-- 60_exceptions.md R256: an operation that raises a violation writes no field of S but `fault` and returns nothing; from
then on no operation of an agent has a step. (RESET is the host's start of a new run, R259.) -/
def Obligations.FaultEntryIsPreciseAndTerminal : Prop :=
  (∀ (i : Instr) (s t : State), i ≠ .reset → exec i s = .next t → t.fault ≠ s.fault →
    ∃ v, t = { s with fault := some v, result := .nothing, runStarted := true }) ∧
  (∀ (i : Instr) (s : State) (v : Violation), i ≠ .reset → s.fault = some v →
    exec i s = .fault (.terminated v))

/-- 60_exceptions.md R251, R255: which operation can raise which violation, and on what condition. -/
def Obligations.OnlyTheListedViolations : Prop :=
  ∀ (i : Instr) (s t : State) (v : Violation), exec i s = .next t → t.fault = some v →
    match v with
    | .memOutOfRange a => 65536 ≤ a ∧ (i = .memrd a ∨ ∃ x, i = .memwr a x)
    | .loadOverflow offset n => 65536 < offset + n ∧ ∃ bs : List Byte, bs.length = n ∧ i = .load offset bs
    | .unmappedPort dir p => s.cfg.strictPorts = true ∧
        ((dir = .read ∧ i = .inUnmapped p) ∨ (dir = .write ∧ ∃ x, i = .outUnmapped p x))

/-- 60_exceptions.md R250, R258: exec stops only on a terminated block, on a bad frame buffer and on a RESET of a run in
progress; everything else completes or waits. -/
def Obligations.OnlyTheListedStops : Prop :=
  (∀ (i : Instr) (s : State) (f : Fault), exec i s = .fault f →
    i ≠ .reset ∧ ∃ v, s.fault = some v ∧ f = .terminated v) ∧
  (∀ (i : Instr) (s : State) (r : Refusal), exec i s = .refused r →
    (r = .badFrameBuffer ∧ ∃ pitch fb, i = .getframe pitch fb ∧
      (pitch < 224 ∨ fb.length < 255 * pitch + 224)) ∨
    (r = .secondReset ∧ i = .reset ∧ s.runStarted = true ∧ s.fault = none)) ∧
  (∀ (i : Instr) (s t : State), exec i s = .next t → t.result = .waiting →
    s.lock ≠ .free ∧ ((∃ time, i = .tick time) ∨ ∃ pitch fb, i = .getframe pitch fb))

/-- 10_state.md R20, the column "written by": an operation leaves every field it is not listed for as it was, and no
operation changes the parameters, the inbox or (but for an input port's read) the input source. -/
def Obligations.EveryFieldHasItsWriters : Prop :=
  ∀ (i : Instr) (s t : State) (f : Field), exec i s = .next t → f ∉ writtenBy i → f.agree s t

/-- 10_state.md R20, the column "read by", for SNAP: no operation but GETFRAME depends on it. -/
def Obligations.OnlyGetframeReadsTheSnapshot : Prop :=
  ∀ (i : Instr) (s : State) (m : Memory), (∀ pitch fb, i ≠ .getframe pitch fb) →
    mapNext (fun t => { t with snap := [] }) (exec i { s with snap := m }) =
      mapNext (fun t => { t with snap := [] }) (exec i s)

/-- 10_state.md section 4 (the spec's decision D13): the output trace only grows within a run, and no operation reads it. -/
def Obligations.TraceIsAppendOnlyAndNeverRead : Prop :=
  ∀ (i : Instr) (s : State) (l : List Event), i ≠ .reset →
    exec i { s with trace := l } =
      mapNext (fun t => { t with trace := l ++ t.trace.drop s.trace.length }) (exec i s) ∧
    ∀ t, exec i s = .next t → s.trace <+: t.trace

/-- 10_state.md section 5, the last two invariants: without RESET neither `quit` nor `fault` is ever cleared. On a faulted
block the only such steps stand still (the inbox is empty), since no operation of an agent has one. -/
def Obligations.QuitAndFaultStay : Prop :=
  (∀ (i : Instr) (s t : State), i ≠ .reset → exec i s = .next t → s.quit = true → t.quit = true) ∧
  ∀ s t : State, step s = .next t →
    (∃ r rest, s.inbox = r :: rest ∧ decodeRequest s.cfg r = .ok .reset) ∨
    ((s.quit = true → t.quit = true) ∧ ∀ v, s.fault = some v → t.fault = some v)

/-- 70_reset_and_hazards.md, RESET (once: the spec's decision D29). Before the run has begun, and (log entry 6) after a
fault has ended it, every field of S takes its reset value; in a run in progress RESET is refused. -/
def Obligations.ResetStartsARunOnce : Prop :=
  ∀ (s : State),
    (s.runStarted = false ∨ s.fault ≠ none →
      exec .reset s = .next
        { mem := [], snap := [], lock := .free, shiftAmount := 0, shiftData := 0, prevSnd1 := 0, prevSnd2 := 0,
          phase := .awaitingMid, lastTime := s.cfg.lastTimeReset, quit := false, fault := none, trace := [],
          result := .done, runStarted := true, draws := s.draws, inbox := s.inbox, cfg := s.cfg }) ∧
    (s.runStarted = true → s.fault = none → exec .reset s = .refused .secondReset)

/-- 30_encoding.md section 3: the codes of TICK's results and of the fault values (the spec's decisions D21, D22). -/
def Obligations.ResultAndFaultCodes : Prop :=
  TickResult.noInterrupt.code = 0 ∧ TickResult.mid.code = 1 ∧ TickResult.vblank.code = 2 ∧
  TickResult.quit.code = 3 ∧ (∀ a, (Violation.memOutOfRange a).code = 1) ∧
  (∀ offset n, (Violation.loadOverflow offset n).code = 2) ∧ ∀ dir p, (Violation.unmappedPort dir p).code = 3

/-! ## The shift register over several operations -/

/-- 41_shift_register.md R136: after two data writes and an amount write, in any of the three orders, the read returns
(data_combined >> (8 - amount)) & 0xFF, the amount 0 included; what the register held before does not matter. -/
def Obligations.TwoWritesThenReadGiveTheWindow : Prop :=
  ∀ (s : State) (n d₁ d₂ : Byte) (is : List Instr), s.fault = none →
    (is = [.outShamt n, .outShdata d₁, .outShdata d₂] ∨ is = [.outShdata d₁, .outShamt n, .outShdata d₂] ∨
      is = [.outShdata d₁, .outShdata d₂, .outShamt n]) →
    ∃ (t : State) (r : Byte), execAll (is ++ [.inShres]) s = .next t ∧ t.result = .byte r ∧
      r.toNat = (d₂.toNat * 256 + d₁.toNat) / 2 ^ (8 - n.toNat % 8) % 256

/-- 41_shift_register.md section 2: the result is the quotient of the definition and these two other forms of it. -/
def Obligations.ShiftResultForms : Prop :=
  ∀ (d : Accumulator) (a : Amount),
    (shiftResult d a).toNat = d.toNat * 2 ^ a.toNat / 256 % 256 ∧
    (shiftResult d a).toNat = (d.toNat / 256 * 2 ^ a.toNat + d.toNat % 256 / 2 ^ (8 - a.toNat)) % 256

/-! ## The fine-grained form -/

/-- 20_memory.md, the lock discipline and the consistency of the snapshot (R62 to R64): in every interleaving of the two
agents' moves the lock is held by the agent that copies and by no other, and each copy is of one instant. -/
def Obligations.MovesKeepTheLockDiscipline : Prop :=
  ∀ (m : Move) (c c' : Contexts), c.ok → c.move m = some c' → c'.ok

/-- 20_memory.md R63, R64: while a copy runs no move of either agent changes what it copies from. -/
def Obligations.SourcesStandStillDuringACopy : Prop :=
  ∀ (m : Move) (c c' : Contexts), c.ok → c.move m = some c' →
    (c.cpu ≠ .idle → c'.block.mem = c.block.mem ∧ c'.block.cfg = c.block.cfg) ∧
    (∀ pitch fb tmp k, c.consumer = .copyOut pitch fb tmp k → c'.block.snap = c.block.snap)

/-- 20_memory.md R62, the two forms agree, CPU side: the end-of-screen TICK run move by move (one to begin, one to acquire,
7168 bytes, one to release, one to report) ends in the state of the atomic TICK. -/
def Obligations.TickMoveByMoveIsTheAtomicTick : Prop :=
  ∀ (s u : State) (t : Nat), s.storesOk = true → tickArm t s = .endOfScreen → exec (.tick t) s = .next u →
    (Contexts.start s).moves (.cpuIssue (.tick t) :: List.replicate 7171 .cpuAdvance) = some (Contexts.start u)

/-- 20_memory.md R62, the two forms agree, consumer: GETFRAME run move by move (one to begin, 7168 bytes, one to release,
one to draw) ends in the state of the atomic GETFRAME. -/
def Obligations.GetframeMoveByMoveIsTheAtomicGetframe : Prop :=
  ∀ (s u : State) (pitch : Nat) (fb : List Byte), s.storesOk = true → exec (.getframe pitch fb) s = .next u →
    (Contexts.start s).moves (.consumerIssue (.getframe pitch fb) :: List.replicate 7170 .consumerAdvance) =
      some (Contexts.start u)

/-- 70_reset_and_hazards.md, "After quit": a TICK that has made its tests and waits for the lock completes as usual when the
consumer sets the quit signal meanwhile: it takes the snapshot and returns VBlank. -/
def Obligations.TickInProgressOutlastsSetquit : Prop :=
  ∀ c : Contexts, c.ok → c.cpu = .acquiring → c.consumer = .idle → c.block.fault = none →
    ∃ c' : Contexts, c.moves (.consumerIssue .setquit :: List.replicate 7171 .cpuAdvance) = some c' ∧
      c'.cpu = .idle ∧ c'.block.lock = .free ∧ c'.block.quit = true ∧ c'.block.result = .tick .vblank ∧
      c'.block.trace = c.block.trace ++ [.irq .vblank] ∧
      ∀ i, i < 7168 → c'.block.snap.read i = c.block.mem.read (c.block.cfg.vramBase + i)
end

