-- ==== Sys2Proof/Laws/Decode.lean ====
section
/-!
SUPPORT. What the fields of an assembled head word are, and how wide TICK's decoded operand is, so that no later proof
unfolds the layout.
-/
namespace Sys2Proof.Laws

/-- The constraints on the parameters, one by one. -/
theorem config_wf_iff (c : Config) :
    c.wf = true ↔ c.vramBase + vramLen ≤ memSize ∧ c.readPorts.Nodup ∧ c.writePorts.Nodup ∧
      (∀ p ∈ c.readPorts ++ c.writePorts, p < 2 ^ c.portWidth) ∧ c.lastTimeReset < 2 ^ c.timeWidth := by
  simp only [Config.wf, Bool.and_eq_true, decide_eq_true_eq, and_assoc]

/-- The two fields below the selector fit below it. -/
theorem fields_lt (c : Config) (p : Nat) (d : Byte) : p % 2 ^ c.portWidth * 2 ^ 8 + d.toNat < 2 ^ c.opShift := by
  have hp : p % 2 ^ c.portWidth < 2 ^ c.portWidth := Nat.mod_lt _ (Nat.two_pow_pos _)
  rw [Config.opShift, Nat.pow_add]
  exact Nat.lt_of_lt_of_le (Nat.add_lt_add_left d.isLt _)
    (by rw [← Nat.succ_mul]; exact Nat.mul_le_mul_right _ hp)

theorem headOp_headOf (c : Config) (op : Nat) (p : Nat) (d : Byte) : headOp c (headOf c op p d) = op := by
  rw [headOp, headOf, Nat.add_assoc, Nat.mul_comm, Nat.mul_add_div (Nat.two_pow_pos _),
    Nat.div_eq_of_lt (fields_lt c p d), Nat.add_zero]

theorem headLow_headOf (c : Config) (op : Nat) (p : Nat) (d : Byte) :
    headLow c (headOf c op p d) = p % 2 ^ c.portWidth * 2 ^ 8 + d.toNat := by
  rw [headLow, headOf, Nat.add_assoc, Nat.mul_comm op, Nat.mul_add_mod, Nat.mod_eq_of_lt (fields_lt c p d)]

theorem headPort_headOf (c : Config) (op : Nat) (p : Nat) (d : Byte) :
    headPort c (headOf c op p d) = p % 2 ^ c.portWidth := by
  have hs : op * 2 ^ c.opShift = 2 ^ 8 * (2 ^ c.portWidth * op) := by rw [Config.opShift, Nat.pow_add]; ring
  rw [headPort, headOf, hs, Nat.mul_comm (p % 2 ^ c.portWidth), ← Nat.mul_add, Nat.mul_add_div (by decide),
    Nat.div_eq_of_lt d.isLt, Nat.add_zero, Nat.mul_add_mod, Nat.mod_mod]

theorem headData_headOf (c : Config) (op : Nat) (p : Nat) (d : Byte) : headData (headOf c op p d) = d := by
  have hs : op * 2 ^ c.opShift = 2 ^ 8 * (2 ^ c.portWidth * op) := by rw [Config.opShift, Nat.pow_add]; ring
  apply BitVec.eq_of_toNat_eq
  rw [headData, headOf, hs, Nat.mul_comm (p % 2 ^ c.portWidth), ← Nat.mul_add, BitVec.toNat_ofNat, Nat.mul_add_mod,
    Nat.mod_eq_of_lt d.isLt]

/-- TICK's operand has TIME_WIDTH bits. -/
theorem timeOperand_lt (c : Config) (o : Operands) : timeOperand c o < 2 ^ c.timeWidth := Nat.mod_lt _ (Nat.two_pow_pos _)

theorem dispatchIn_ne_tick (c : Config) (p : Nat) (t : Nat) : dispatchIn c p ≠ .tick t := by
  unfold dispatchIn
  repeat' split
  all_goals simp

theorem dispatchOut_ne_tick (c : Config) (p : Nat) (v : Byte) (t : Nat) : dispatchOut c p v ≠ .tick t := by
  unfold dispatchOut
  repeat' split
  all_goals simp

/-- A TICK that was decoded has an operand of TIME_WIDTH bits. -/
theorem decode_tick_lt {c : Config} {h : Nat} {o : Operands} {t : Nat} (hd : decode c h o = .ok (.tick t)) :
    t < 2 ^ c.timeWidth := by
  have hc : ∀ op, decodeCommand c op o = .ok (.tick t) → t = timeOperand c o := by
    intro op h
    unfold decodeCommand at h
    split at h
    · simpa using h.symm
    · repeat' split at h
      all_goals simp at h
  unfold decode at hd
  split at hd
  · exact absurd (Except.ok.inj hd) (dispatchIn_ne_tick c _ t)
  · split at hd
    · exact absurd (Except.ok.inj hd) (dispatchOut_ne_tick c _ _ t)
    · split at hd
      · simp at hd
      · split at hd
        · simp at hd
        · exact hc _ hd ▸ timeOperand_lt c o

end Sys2Proof.Laws
end

