-- ==== Sys2Proof/Laws/Memory.lean ====
section
/-!
SUPPORT. The laws of memory: what a read gives after a write, a block store or a slice, that each of them keeps the
canonical form, and that memories in canonical form are equal when they read alike.
-/
namespace Sys2Proof.Machine

@[simp] theorem Memory.read_nil (a : Nat) : Memory.read [] a = Memory.background := rfl

theorem Memory.read_cons (k : Nat) (x : Byte) (rest : Memory) (a : Nat) :
    Memory.read ((k, x) :: rest) a = if k = a then x else Memory.read rest a := rfl

@[simp] theorem Memory.risingFrom_nil (low : Nat) : Memory.risingFrom low [] = true := rfl

theorem Memory.risingFrom_cons (low k : Nat) (x : Byte) (rest : Memory) :
    Memory.risingFrom low ((k, x) :: rest) = true ↔ low ≤ k ∧ Memory.risingFrom (k + 1) rest = true := by
  simp [Memory.risingFrom]

theorem Memory.risingFrom_mono {low low' : Nat} {m : Memory} (h : low' ≤ low)
    (hm : Memory.risingFrom low m = true) : Memory.risingFrom low' m = true := by
  cases m with
  | nil => rfl
  | cons c rest =>
    rw [Memory.risingFrom_cons] at hm ⊢
    exact ⟨by omega, hm.2⟩

/-- Below the first listed address everything reads as the background. -/
theorem Memory.read_below {low a : Nat} {m : Memory} (hm : Memory.risingFrom low m = true) (h : a < low) :
    m.read a = Memory.background := by
  induction m generalizing low with
  | nil => rfl
  | cons c rest ih =>
    obtain ⟨k, x⟩ := c
    rw [Memory.risingFrom_cons] at hm
    rw [Memory.read_cons, if_neg (by omega), ih hm.2 (by omega)]

/-- A write leaves every other address alone, whatever form the memory has. -/
theorem Memory.read_write_of_ne {m : Memory} {a b : Nat} (v : Byte) (h : b ≠ a) :
    (m.write a v).read b = m.read b := by
  induction m with
  | nil =>
    unfold Memory.write
    split <;> simp [Memory.read_cons, Ne.symm h]
  | cons c rest ih =>
    obtain ⟨k, x⟩ := c
    unfold Memory.write
    split
    · split <;> simp [Memory.read_cons, Ne.symm h]
    · split
      · rename_i hk
        subst hk
        split <;> simp [Memory.read_cons, Ne.symm h]
      · simp only [Memory.read_cons, ih]

theorem Memory.read_write_self_of_rising {low : Nat} {m : Memory} (hm : Memory.risingFrom low m = true) (a : Nat)
    (v : Byte) : (m.write a v).read a = v := by
  induction m generalizing low with
  | nil =>
    unfold Memory.write
    split <;> simp_all [Memory.read_cons]
  | cons c rest ih =>
    obtain ⟨k, x⟩ := c
    rw [Memory.risingFrom_cons] at hm
    unfold Memory.write
    split
    · rename_i hlt
      split
      · rename_i hv
        rw [Memory.read_cons, if_neg (by omega), Memory.read_below hm.2 (by omega), hv]
      · simp [Memory.read_cons]
    · split
      · rename_i hk
        subst hk
        split
        · rename_i hv
          rw [Memory.read_below hm.2 (by omega), hv]
        · simp [Memory.read_cons]
      · rename_i _ hne
        rw [Memory.read_cons, if_neg (Ne.symm hne), ih hm.2]

/-- A read after a write to the same place gives what was written. -/
theorem Memory.read_write_self {size : Nat} {m : Memory} (hm : m.wf size = true) (a : Nat) (v : Byte) :
    (m.write a v).read a = v := by
  simp only [Memory.wf, Bool.and_eq_true] at hm
  exact Memory.read_write_self_of_rising hm.1 a v

theorem Memory.risingFrom_write {low : Nat} {m : Memory} (hm : Memory.risingFrom low m = true) {a : Nat}
    (h : low ≤ a) (v : Byte) : Memory.risingFrom low (m.write a v) = true := by
  induction m generalizing low with
  | nil =>
    unfold Memory.write
    split
    · rfl
    · simpa [Memory.risingFrom_cons] using h
  | cons c rest ih =>
    obtain ⟨k, x⟩ := c
    have hm' := (Memory.risingFrom_cons low k x rest).1 hm
    unfold Memory.write
    split
    · split
      · exact hm
      · simp only [Memory.risingFrom_cons]
        exact ⟨h, by omega, hm'.2⟩
    · split
      · rename_i hk
        subst hk
        split
        · exact Memory.risingFrom_mono (by omega) hm'.2
        · exact (Memory.risingFrom_cons _ _ _ _).2 ⟨h, hm'.2⟩
      · exact (Memory.risingFrom_cons _ _ _ _).2 ⟨hm'.1, ih hm'.2 (by omega)⟩

theorem Memory.mem_write {m : Memory} {a : Nat} {v : Byte} {c : Host.Cell} (h : c ∈ m.write a v) :
    c ∈ m ∨ (c = (a, v) ∧ v ≠ Memory.background) := by
  induction m with
  | nil =>
    unfold Memory.write at h
    split at h <;> simp_all
  | cons d rest ih =>
    obtain ⟨k, x⟩ := d
    unfold Memory.write at h
    split at h
    · split at h <;> simp_all
      tauto
    · split at h
      · split at h <;> simp_all
        tauto
      · rcases List.mem_cons.1 h with h | h
        · exact .inl (by simp [h])
        · rcases ih h with h | h
          · exact .inl (by simp [h])
          · exact .inr h

theorem Memory.wf_iff {size : Nat} {m : Memory} :
    m.wf size = true ↔
      Memory.risingFrom 0 m = true ∧ ∀ c ∈ m, c.1 < size ∧ c.2 ≠ Memory.background := by
  simp [Memory.wf]

@[simp] theorem Memory.wf_nil (size : Nat) : Memory.wf size [] = true := rfl

/-- A write inside the memory keeps the canonical form. -/
theorem Memory.wf_write {size : Nat} {m : Memory} (hm : m.wf size = true) {a : Nat} (h : a < size) (v : Byte) :
    (m.write a v).wf size = true := by
  rw [Memory.wf_iff] at hm ⊢
  refine ⟨Memory.risingFrom_write hm.1 (Nat.zero_le a) v, fun c hc => ?_⟩
  rcases Memory.mem_write hc with hc | ⟨rfl, hv⟩
  · exact hm.2 c hc
  · exact ⟨h, hv⟩

/-- A block store inside the memory keeps the canonical form. -/
theorem Memory.wf_load {size : Nat} {m : Memory} (hm : m.wf size = true) {a : Nat} {bs : List Byte}
    (h : a + bs.length ≤ size) : (m.load a bs).wf size = true := by
  induction bs generalizing m a with
  | nil => exact hm
  | cons b rest ih =>
    simp only [List.length_cons] at h
    exact ih (Memory.wf_write hm (by omega) b) (by omega)

/-- A block store leaves every address outside its bytes alone. -/
theorem Memory.read_load_outside {m : Memory} {a b : Nat} {bs : List Byte} (h : b < a ∨ a + bs.length ≤ b) :
    (m.load a bs).read b = m.read b := by
  induction bs generalizing m a with
  | nil => rfl
  | cons x rest ih =>
    simp only [List.length_cons] at h
    rw [Memory.load, ih (by omega), Memory.read_write_of_ne x (by omega)]

/-- A block store puts byte `k` of the buffer at `a + k`. -/
theorem Memory.read_load_inside {size : Nat} {m : Memory} (hm : m.wf size = true) {a k : Nat} {bs : List Byte}
    (h : a + bs.length ≤ size) (hk : k < bs.length) : (m.load a bs).read (a + k) = bs[k] := by
  induction bs generalizing m a k with
  | nil => simp at hk
  | cons x rest ih =>
    simp only [List.length_cons] at h hk
    have hw := Memory.wf_write hm (show a < size by omega) x
    cases k with
    | zero =>
      rw [Memory.load, Memory.read_load_outside (by omega)]
      simpa using Memory.read_write_self hm a x
    | succ k =>
      have := ih hw (a := a + 1) (by omega) (show k < rest.length by omega)
      rw [Memory.load, List.getElem_cons_succ, ← this]
      exact congrArg _ (by omega)

/-- A slice lists only cells of the sliced memory, keyed from 0. -/
theorem Memory.mem_slice {m : Memory} {base n : Nat} {c : Host.Cell} (h : c ∈ m.slice base n) :
    c.1 < n ∧ (base + c.1, c.2) ∈ m := by
  simp only [Memory.slice, List.mem_map, List.mem_filter, decide_eq_true_eq] at h
  obtain ⟨⟨k, x⟩, ⟨hm, hlo, hhi⟩, rfl⟩ := h
  refine ⟨by simp only; omega, ?_⟩
  simpa [Nat.add_sub_cancel' hlo] using hm

/-- A slice of `n` bytes from `base` reads at `i` as the memory does at `base + i`. -/
theorem Memory.read_slice {m : Memory} {base n i : Nat} (h : i < n) :
    (m.slice base n).read i = m.read (base + i) := by
  induction m with
  | nil => rfl
  | cons c rest ih =>
    obtain ⟨k, x⟩ := c
    simp only [Memory.slice] at ih ⊢
    by_cases hk : base ≤ k ∧ k < base + n
    · rw [List.filter_cons_of_pos (by simpa using hk), List.map_cons, Memory.read_cons, Memory.read_cons]
      simp only
      by_cases hi : k = base + i
      · rw [if_pos hi, if_pos (by omega)]
      · rw [if_neg hi, if_neg (by omega)]
        exact ih
    · rw [List.filter_cons_of_neg (by simpa using hk), Memory.read_cons, if_neg (by omega)]
      exact ih

theorem Memory.risingFrom_slice {m : Memory} {low low' base n : Nat} (hm : Memory.risingFrom low m = true)
    (h : base + low' ≤ low ∨ low' = 0) : Memory.risingFrom low' (m.slice base n) = true := by
  induction m generalizing low low' with
  | nil => rfl
  | cons c rest ih =>
    obtain ⟨k, x⟩ := c
    rw [Memory.risingFrom_cons] at hm
    simp only [Memory.slice] at ih ⊢
    by_cases hk : base ≤ k ∧ k < base + n
    · rw [List.filter_cons_of_pos (by simpa using hk), List.map_cons, Memory.risingFrom_cons]
      exact ⟨by omega, ih hm.2 (.inl (by omega))⟩
    · rw [List.filter_cons_of_neg (by simpa using hk)]
      exact ih hm.2 (by omega)

/-- A slice has the canonical form if the memory has. -/
theorem Memory.wf_slice {m : Memory} {size base n : Nat} (hm : m.wf size = true) :
    (m.slice base n).wf n = true := by
  rw [Memory.wf_iff] at hm ⊢
  refine ⟨Memory.risingFrom_slice hm.1 (.inr rfl), fun c hc => ?_⟩
  obtain ⟨hlt, hin⟩ := Memory.mem_slice hc
  exact ⟨hlt, (hm.2 _ hin).2⟩

theorem Memory.ext_of_rising {low : Nat} {m m' : Memory} (hm : Memory.risingFrom low m = true)
    (hm' : Memory.risingFrom low m' = true) (hx : ∀ c ∈ m, c.2 ≠ Memory.background)
    (hx' : ∀ c ∈ m', c.2 ≠ Memory.background) (h : ∀ a, m.read a = m'.read a) : m = m' := by
  induction m generalizing low m' with
  | nil =>
    cases m' with
    | nil => rfl
    | cons c' rest' =>
      obtain ⟨k', x'⟩ := c'
      have := h k'
      rw [Memory.read_cons, if_pos rfl] at this
      exact absurd this.symm (hx' (k', x') (by simp))
  | cons c rest ih =>
    obtain ⟨k, x⟩ := c
    have hxk : x ≠ Memory.background := hx (k, x) (by simp)
    cases m' with
    | nil =>
      have := h k
      rw [Memory.read_cons, if_pos rfl] at this
      exact absurd this hxk
    | cons c' rest' =>
      obtain ⟨k', x'⟩ := c'
      have hxk' : x' ≠ Memory.background := hx' (k', x') (by simp)
      rw [Memory.risingFrom_cons] at hm hm'
      have hkk : k = k' := by
        rcases Nat.lt_trichotomy k k' with hlt | heq | hgt
        · have := h k
          rw [Memory.read_cons, if_pos rfl, Memory.read_cons, if_neg (by omega),
            Memory.read_below hm'.2 (by omega)] at this
          exact absurd this hxk
        · exact heq
        · have := h k'
          rw [Memory.read_cons, if_neg (by omega), Memory.read_below hm.2 (by omega), Memory.read_cons,
            if_pos rfl] at this
          exact absurd this.symm hxk'
      subst hkk
      have hxx : x = x' := by simpa [Memory.read_cons] using h k
      subst hxx
      congr 1
      refine ih hm.2 hm'.2 (fun c hc => hx c (by simp [hc])) (fun c hc => hx' c (by simp [hc])) fun a => ?_
      by_cases ha : k = a
      · subst ha
        rw [Memory.read_below hm.2 (by omega), Memory.read_below hm'.2 (by omega)]
      · simpa [Memory.read_cons, ha] using h a

/-- Two memories in canonical form that read alike are the same data. -/
theorem Memory.ext_of_wf {size size' : Nat} {m m' : Memory} (hm : m.wf size = true) (hm' : m'.wf size' = true)
    (h : ∀ a, m.read a = m'.read a) : m = m' := by
  rw [Memory.wf_iff] at hm hm'
  exact Memory.ext_of_rising hm.1 hm'.1 (fun c hc => (hm.2 c hc).2) (fun c hc => (hm'.2 c hc).2) h

/-- Outside its size a memory in canonical form reads as the background. -/
theorem Memory.read_outside {size a : Nat} {m : Memory} (hm : m.wf size = true) (h : size ≤ a) :
    m.read a = Memory.background := by
  rw [Memory.wf_iff] at hm
  obtain ⟨-, hm⟩ := hm
  induction m with
  | nil => rfl
  | cons c rest ih =>
    obtain ⟨k, x⟩ := c
    have hk : k < size := (hm (k, x) (by simp)).1
    rw [Memory.read_cons, if_neg (by omega), ih fun c hc => hm c (by simp [hc])]

@[simp] theorem Memory.length_bytes (m : Memory) (base n : Nat) : (m.bytes base n).length = n := by
  simp [Memory.bytes]

theorem Memory.getElem_bytes (m : Memory) (base n i : Nat) (h : i < (m.bytes base n).length) :
    (m.bytes base n)[i] = m.read (base + i) := by
  simp [Memory.bytes]

end Sys2Proof.Machine
end

