-- ==== Sys2Proof/Laws/State.lean ====
section
/-!
SUPPORT. What each named update of the state leaves in each field, one lemma a field, so that no later proof unfolds a
record update.
-/
namespace Sys2Proof.Machine.State

/-! ## respond -/

@[simp] theorem respond_mem (r : Result) (s : State) : (s.respond r).mem = s.mem := rfl
@[simp] theorem respond_snap (r : Result) (s : State) : (s.respond r).snap = s.snap := rfl
@[simp] theorem respond_lock (r : Result) (s : State) : (s.respond r).lock = s.lock := rfl
@[simp] theorem respond_shiftAmount (r : Result) (s : State) : (s.respond r).shiftAmount = s.shiftAmount := rfl
@[simp] theorem respond_shiftData (r : Result) (s : State) : (s.respond r).shiftData = s.shiftData := rfl
@[simp] theorem respond_prevSnd1 (r : Result) (s : State) : (s.respond r).prevSnd1 = s.prevSnd1 := rfl
@[simp] theorem respond_prevSnd2 (r : Result) (s : State) : (s.respond r).prevSnd2 = s.prevSnd2 := rfl
@[simp] theorem respond_phase (r : Result) (s : State) : (s.respond r).phase = s.phase := rfl
@[simp] theorem respond_lastTime (r : Result) (s : State) : (s.respond r).lastTime = s.lastTime := rfl
@[simp] theorem respond_quit (r : Result) (s : State) : (s.respond r).quit = s.quit := rfl
@[simp] theorem respond_fault (r : Result) (s : State) : (s.respond r).fault = s.fault := rfl
@[simp] theorem respond_trace (r : Result) (s : State) : (s.respond r).trace = s.trace := rfl
@[simp] theorem respond_result (r : Result) (s : State) : (s.respond r).result = r := rfl
@[simp] theorem respond_runStarted (r : Result) (s : State) : (s.respond r).runStarted = true := rfl
@[simp] theorem respond_draws (r : Result) (s : State) : (s.respond r).draws = s.draws := rfl
@[simp] theorem respond_inbox (r : Result) (s : State) : (s.respond r).inbox = s.inbox := rfl
@[simp] theorem respond_cfg (r : Result) (s : State) : (s.respond r).cfg = s.cfg := rfl

/-! ## emit -/

@[simp] theorem emit_mem (e : Event) (s : State) : (s.emit e).mem = s.mem := rfl
@[simp] theorem emit_snap (e : Event) (s : State) : (s.emit e).snap = s.snap := rfl
@[simp] theorem emit_lock (e : Event) (s : State) : (s.emit e).lock = s.lock := rfl
@[simp] theorem emit_shiftAmount (e : Event) (s : State) : (s.emit e).shiftAmount = s.shiftAmount := rfl
@[simp] theorem emit_shiftData (e : Event) (s : State) : (s.emit e).shiftData = s.shiftData := rfl
@[simp] theorem emit_prevSnd1 (e : Event) (s : State) : (s.emit e).prevSnd1 = s.prevSnd1 := rfl
@[simp] theorem emit_prevSnd2 (e : Event) (s : State) : (s.emit e).prevSnd2 = s.prevSnd2 := rfl
@[simp] theorem emit_phase (e : Event) (s : State) : (s.emit e).phase = s.phase := rfl
@[simp] theorem emit_lastTime (e : Event) (s : State) : (s.emit e).lastTime = s.lastTime := rfl
@[simp] theorem emit_quit (e : Event) (s : State) : (s.emit e).quit = s.quit := rfl
@[simp] theorem emit_fault (e : Event) (s : State) : (s.emit e).fault = s.fault := rfl
@[simp] theorem emit_trace (e : Event) (s : State) : (s.emit e).trace = s.trace ++ [e] := rfl
@[simp] theorem emit_result (e : Event) (s : State) : (s.emit e).result = s.result := rfl
@[simp] theorem emit_runStarted (e : Event) (s : State) : (s.emit e).runStarted = s.runStarted := rfl
@[simp] theorem emit_draws (e : Event) (s : State) : (s.emit e).draws = s.draws := rfl
@[simp] theorem emit_inbox (e : Event) (s : State) : (s.emit e).inbox = s.inbox := rfl
@[simp] theorem emit_cfg (e : Event) (s : State) : (s.emit e).cfg = s.cfg := rfl

/-! ## record -/

@[simp] theorem record_mem (v : Violation) (s : State) : (s.record v).mem = s.mem := rfl
@[simp] theorem record_snap (v : Violation) (s : State) : (s.record v).snap = s.snap := rfl
@[simp] theorem record_lock (v : Violation) (s : State) : (s.record v).lock = s.lock := rfl
@[simp] theorem record_shiftAmount (v : Violation) (s : State) : (s.record v).shiftAmount = s.shiftAmount := rfl
@[simp] theorem record_shiftData (v : Violation) (s : State) : (s.record v).shiftData = s.shiftData := rfl
@[simp] theorem record_prevSnd1 (v : Violation) (s : State) : (s.record v).prevSnd1 = s.prevSnd1 := rfl
@[simp] theorem record_prevSnd2 (v : Violation) (s : State) : (s.record v).prevSnd2 = s.prevSnd2 := rfl
@[simp] theorem record_phase (v : Violation) (s : State) : (s.record v).phase = s.phase := rfl
@[simp] theorem record_lastTime (v : Violation) (s : State) : (s.record v).lastTime = s.lastTime := rfl
@[simp] theorem record_quit (v : Violation) (s : State) : (s.record v).quit = s.quit := rfl
@[simp] theorem record_fault (v : Violation) (s : State) : (s.record v).fault = some v := rfl
@[simp] theorem record_trace (v : Violation) (s : State) : (s.record v).trace = s.trace := rfl
@[simp] theorem record_result (v : Violation) (s : State) : (s.record v).result = s.result := rfl
@[simp] theorem record_runStarted (v : Violation) (s : State) : (s.record v).runStarted = s.runStarted := rfl
@[simp] theorem record_draws (v : Violation) (s : State) : (s.record v).draws = s.draws := rfl
@[simp] theorem record_inbox (v : Violation) (s : State) : (s.record v).inbox = s.inbox := rfl
@[simp] theorem record_cfg (v : Violation) (s : State) : (s.record v).cfg = s.cfg := rfl

/-! ## release -/

@[simp] theorem release_mem (s : State) : s.release.mem = s.mem := rfl
@[simp] theorem release_snap (s : State) : s.release.snap = s.snap := rfl
@[simp] theorem release_lock (s : State) : s.release.lock = .free := rfl
@[simp] theorem release_shiftAmount (s : State) : s.release.shiftAmount = s.shiftAmount := rfl
@[simp] theorem release_shiftData (s : State) : s.release.shiftData = s.shiftData := rfl
@[simp] theorem release_prevSnd1 (s : State) : s.release.prevSnd1 = s.prevSnd1 := rfl
@[simp] theorem release_prevSnd2 (s : State) : s.release.prevSnd2 = s.prevSnd2 := rfl
@[simp] theorem release_phase (s : State) : s.release.phase = s.phase := rfl
@[simp] theorem release_lastTime (s : State) : s.release.lastTime = s.lastTime := rfl
@[simp] theorem release_quit (s : State) : s.release.quit = s.quit := rfl
@[simp] theorem release_fault (s : State) : s.release.fault = s.fault := rfl
@[simp] theorem release_trace (s : State) : s.release.trace = s.trace := rfl
@[simp] theorem release_result (s : State) : s.release.result = s.result := rfl
@[simp] theorem release_runStarted (s : State) : s.release.runStarted = s.runStarted := rfl
@[simp] theorem release_draws (s : State) : s.release.draws = s.draws := rfl
@[simp] theorem release_inbox (s : State) : s.release.inbox = s.inbox := rfl
@[simp] theorem release_cfg (s : State) : s.release.cfg = s.cfg := rfl

/-! ## useDraw -/

@[simp] theorem useDraw_mem (s : State) : s.useDraw.mem = s.mem := rfl
@[simp] theorem useDraw_snap (s : State) : s.useDraw.snap = s.snap := rfl
@[simp] theorem useDraw_lock (s : State) : s.useDraw.lock = s.lock := rfl
@[simp] theorem useDraw_shiftAmount (s : State) : s.useDraw.shiftAmount = s.shiftAmount := rfl
@[simp] theorem useDraw_shiftData (s : State) : s.useDraw.shiftData = s.shiftData := rfl
@[simp] theorem useDraw_prevSnd1 (s : State) : s.useDraw.prevSnd1 = s.prevSnd1 := rfl
@[simp] theorem useDraw_prevSnd2 (s : State) : s.useDraw.prevSnd2 = s.prevSnd2 := rfl
@[simp] theorem useDraw_phase (s : State) : s.useDraw.phase = s.phase := rfl
@[simp] theorem useDraw_lastTime (s : State) : s.useDraw.lastTime = s.lastTime := rfl
@[simp] theorem useDraw_quit (s : State) : s.useDraw.quit = s.quit := rfl
@[simp] theorem useDraw_fault (s : State) : s.useDraw.fault = s.fault := rfl
@[simp] theorem useDraw_trace (s : State) : s.useDraw.trace = s.trace := rfl
@[simp] theorem useDraw_result (s : State) : s.useDraw.result = s.result := rfl
@[simp] theorem useDraw_runStarted (s : State) : s.useDraw.runStarted = s.runStarted := rfl
@[simp] theorem useDraw_draws (s : State) : s.useDraw.draws = s.draws + 1 := rfl
@[simp] theorem useDraw_inbox (s : State) : s.useDraw.inbox = s.inbox := rfl
@[simp] theorem useDraw_cfg (s : State) : s.useDraw.cfg = s.cfg := rfl

/-! ## beginEndOfScreen -/

@[simp] theorem beginEndOfScreen_mem (t : Nat) (s : State) : (s.beginEndOfScreen t).mem = s.mem := rfl
@[simp] theorem beginEndOfScreen_snap (t : Nat) (s : State) : (s.beginEndOfScreen t).snap = s.snap := rfl
@[simp] theorem beginEndOfScreen_lock (t : Nat) (s : State) : (s.beginEndOfScreen t).lock = s.lock := rfl
@[simp] theorem beginEndOfScreen_shiftAmount (t : Nat) (s : State) : (s.beginEndOfScreen t).shiftAmount = s.shiftAmount := rfl
@[simp] theorem beginEndOfScreen_shiftData (t : Nat) (s : State) : (s.beginEndOfScreen t).shiftData = s.shiftData := rfl
@[simp] theorem beginEndOfScreen_prevSnd1 (t : Nat) (s : State) : (s.beginEndOfScreen t).prevSnd1 = s.prevSnd1 := rfl
@[simp] theorem beginEndOfScreen_prevSnd2 (t : Nat) (s : State) : (s.beginEndOfScreen t).prevSnd2 = s.prevSnd2 := rfl
@[simp] theorem beginEndOfScreen_phase (t : Nat) (s : State) : (s.beginEndOfScreen t).phase = .awaitingMid := rfl
@[simp] theorem beginEndOfScreen_lastTime (t : Nat) (s : State) : (s.beginEndOfScreen t).lastTime = t := rfl
@[simp] theorem beginEndOfScreen_quit (t : Nat) (s : State) : (s.beginEndOfScreen t).quit = s.quit := rfl
@[simp] theorem beginEndOfScreen_fault (t : Nat) (s : State) : (s.beginEndOfScreen t).fault = s.fault := rfl
@[simp] theorem beginEndOfScreen_trace (t : Nat) (s : State) : (s.beginEndOfScreen t).trace = s.trace := rfl
@[simp] theorem beginEndOfScreen_result (t : Nat) (s : State) : (s.beginEndOfScreen t).result = s.result := rfl
@[simp] theorem beginEndOfScreen_runStarted (t : Nat) (s : State) : (s.beginEndOfScreen t).runStarted = s.runStarted := rfl
@[simp] theorem beginEndOfScreen_draws (t : Nat) (s : State) : (s.beginEndOfScreen t).draws = s.draws := rfl
@[simp] theorem beginEndOfScreen_inbox (t : Nat) (s : State) : (s.beginEndOfScreen t).inbox = s.inbox := rfl
@[simp] theorem beginEndOfScreen_cfg (t : Nat) (s : State) : (s.beginEndOfScreen t).cfg = s.cfg := rfl

/-! ## copyIn -/

@[simp] theorem copyIn_mem (s : State) : s.copyIn.mem = s.mem := rfl
@[simp] theorem copyIn_snap (s : State) : s.copyIn.snap = s.window := rfl
@[simp] theorem copyIn_lock (s : State) : s.copyIn.lock = s.lock := rfl
@[simp] theorem copyIn_shiftAmount (s : State) : s.copyIn.shiftAmount = s.shiftAmount := rfl
@[simp] theorem copyIn_shiftData (s : State) : s.copyIn.shiftData = s.shiftData := rfl
@[simp] theorem copyIn_prevSnd1 (s : State) : s.copyIn.prevSnd1 = s.prevSnd1 := rfl
@[simp] theorem copyIn_prevSnd2 (s : State) : s.copyIn.prevSnd2 = s.prevSnd2 := rfl
@[simp] theorem copyIn_phase (s : State) : s.copyIn.phase = s.phase := rfl
@[simp] theorem copyIn_lastTime (s : State) : s.copyIn.lastTime = s.lastTime := rfl
@[simp] theorem copyIn_quit (s : State) : s.copyIn.quit = s.quit := rfl
@[simp] theorem copyIn_fault (s : State) : s.copyIn.fault = s.fault := rfl
@[simp] theorem copyIn_trace (s : State) : s.copyIn.trace = s.trace := rfl
@[simp] theorem copyIn_result (s : State) : s.copyIn.result = s.result := rfl
@[simp] theorem copyIn_runStarted (s : State) : s.copyIn.runStarted = s.runStarted := rfl
@[simp] theorem copyIn_draws (s : State) : s.copyIn.draws = s.draws := rfl
@[simp] theorem copyIn_inbox (s : State) : s.copyIn.inbox = s.inbox := rfl
@[simp] theorem copyIn_cfg (s : State) : s.copyIn.cfg = s.cfg := rfl

/-! ## startRun -/

@[simp] theorem startRun_mem (s : State) : s.startRun.mem = [] := rfl
@[simp] theorem startRun_snap (s : State) : s.startRun.snap = [] := rfl
@[simp] theorem startRun_lock (s : State) : s.startRun.lock = .free := rfl
@[simp] theorem startRun_shiftAmount (s : State) : s.startRun.shiftAmount = 0 := rfl
@[simp] theorem startRun_shiftData (s : State) : s.startRun.shiftData = 0 := rfl
@[simp] theorem startRun_prevSnd1 (s : State) : s.startRun.prevSnd1 = 0 := rfl
@[simp] theorem startRun_prevSnd2 (s : State) : s.startRun.prevSnd2 = 0 := rfl
@[simp] theorem startRun_phase (s : State) : s.startRun.phase = .awaitingMid := rfl
@[simp] theorem startRun_lastTime (s : State) : s.startRun.lastTime = s.cfg.lastTimeReset := rfl
@[simp] theorem startRun_quit (s : State) : s.startRun.quit = false := rfl
@[simp] theorem startRun_fault (s : State) : s.startRun.fault = none := rfl
@[simp] theorem startRun_trace (s : State) : s.startRun.trace = [] := rfl
@[simp] theorem startRun_result (s : State) : s.startRun.result = .nothing := rfl
@[simp] theorem startRun_runStarted (s : State) : s.startRun.runStarted = false := rfl
@[simp] theorem startRun_draws (s : State) : s.startRun.draws = s.draws := rfl
@[simp] theorem startRun_inbox (s : State) : s.startRun.inbox = s.inbox := rfl
@[simp] theorem startRun_cfg (s : State) : s.startRun.cfg = s.cfg := rfl

/-! ## midArm -/

@[simp] theorem midArm_mem (t : Nat) (s : State) : (s.midArm t).mem = s.mem := rfl
@[simp] theorem midArm_snap (t : Nat) (s : State) : (s.midArm t).snap = s.snap := rfl
@[simp] theorem midArm_lock (t : Nat) (s : State) : (s.midArm t).lock = s.lock := rfl
@[simp] theorem midArm_shiftAmount (t : Nat) (s : State) : (s.midArm t).shiftAmount = s.shiftAmount := rfl
@[simp] theorem midArm_shiftData (t : Nat) (s : State) : (s.midArm t).shiftData = s.shiftData := rfl
@[simp] theorem midArm_prevSnd1 (t : Nat) (s : State) : (s.midArm t).prevSnd1 = s.prevSnd1 := rfl
@[simp] theorem midArm_prevSnd2 (t : Nat) (s : State) : (s.midArm t).prevSnd2 = s.prevSnd2 := rfl
@[simp] theorem midArm_phase (t : Nat) (s : State) : (s.midArm t).phase = .awaitingVBlank := rfl
@[simp] theorem midArm_lastTime (t : Nat) (s : State) : (s.midArm t).lastTime = t := rfl
@[simp] theorem midArm_quit (t : Nat) (s : State) : (s.midArm t).quit = s.quit := rfl
@[simp] theorem midArm_fault (t : Nat) (s : State) : (s.midArm t).fault = s.fault := rfl
@[simp] theorem midArm_trace (t : Nat) (s : State) : (s.midArm t).trace = s.trace ++ [.irq .mid] := rfl
@[simp] theorem midArm_result (t : Nat) (s : State) : (s.midArm t).result = .tick .mid := rfl
@[simp] theorem midArm_runStarted (t : Nat) (s : State) : (s.midArm t).runStarted = true := rfl
@[simp] theorem midArm_draws (t : Nat) (s : State) : (s.midArm t).draws = s.draws := rfl
@[simp] theorem midArm_inbox (t : Nat) (s : State) : (s.midArm t).inbox = s.inbox := rfl
@[simp] theorem midArm_cfg (t : Nat) (s : State) : (s.midArm t).cfg = s.cfg := rfl

/-! ## finishEndOfScreen -/

@[simp] theorem reportVBlank_mem (s : State) : s.reportVBlank.mem = s.mem := rfl
@[simp] theorem reportVBlank_snap (s : State) : s.reportVBlank.snap = s.snap := rfl
@[simp] theorem reportVBlank_lock (s : State) : s.reportVBlank.lock = s.lock := rfl
@[simp] theorem reportVBlank_shiftAmount (s : State) : s.reportVBlank.shiftAmount = s.shiftAmount := rfl
@[simp] theorem reportVBlank_shiftData (s : State) : s.reportVBlank.shiftData = s.shiftData := rfl
@[simp] theorem reportVBlank_prevSnd1 (s : State) : s.reportVBlank.prevSnd1 = s.prevSnd1 := rfl
@[simp] theorem reportVBlank_prevSnd2 (s : State) : s.reportVBlank.prevSnd2 = s.prevSnd2 := rfl
@[simp] theorem reportVBlank_phase (s : State) : s.reportVBlank.phase = s.phase := rfl
@[simp] theorem reportVBlank_lastTime (s : State) : s.reportVBlank.lastTime = s.lastTime := rfl
@[simp] theorem reportVBlank_quit (s : State) : s.reportVBlank.quit = s.quit := rfl
@[simp] theorem reportVBlank_fault (s : State) : s.reportVBlank.fault = s.fault := rfl
@[simp] theorem reportVBlank_trace (s : State) : s.reportVBlank.trace = s.trace ++ [.irq .vblank] := rfl
@[simp] theorem reportVBlank_result (s : State) : s.reportVBlank.result = .tick .vblank := rfl
@[simp] theorem reportVBlank_runStarted (s : State) : s.reportVBlank.runStarted = true := rfl
@[simp] theorem reportVBlank_draws (s : State) : s.reportVBlank.draws = s.draws := rfl
@[simp] theorem reportVBlank_inbox (s : State) : s.reportVBlank.inbox = s.inbox := rfl
@[simp] theorem reportVBlank_cfg (s : State) : s.reportVBlank.cfg = s.cfg := rfl

@[simp] theorem finishEndOfScreen_mem (s : State) : s.finishEndOfScreen.mem = s.mem := rfl
@[simp] theorem finishEndOfScreen_snap (s : State) : s.finishEndOfScreen.snap = s.snap := rfl
@[simp] theorem finishEndOfScreen_lock (s : State) : s.finishEndOfScreen.lock = .free := rfl
@[simp] theorem finishEndOfScreen_shiftAmount (s : State) : s.finishEndOfScreen.shiftAmount = s.shiftAmount := rfl
@[simp] theorem finishEndOfScreen_shiftData (s : State) : s.finishEndOfScreen.shiftData = s.shiftData := rfl
@[simp] theorem finishEndOfScreen_prevSnd1 (s : State) : s.finishEndOfScreen.prevSnd1 = s.prevSnd1 := rfl
@[simp] theorem finishEndOfScreen_prevSnd2 (s : State) : s.finishEndOfScreen.prevSnd2 = s.prevSnd2 := rfl
@[simp] theorem finishEndOfScreen_phase (s : State) : s.finishEndOfScreen.phase = s.phase := rfl
@[simp] theorem finishEndOfScreen_lastTime (s : State) : s.finishEndOfScreen.lastTime = s.lastTime := rfl
@[simp] theorem finishEndOfScreen_quit (s : State) : s.finishEndOfScreen.quit = s.quit := rfl
@[simp] theorem finishEndOfScreen_fault (s : State) : s.finishEndOfScreen.fault = s.fault := rfl
@[simp] theorem finishEndOfScreen_trace (s : State) : s.finishEndOfScreen.trace = s.trace ++ [.irq .vblank] := rfl
@[simp] theorem finishEndOfScreen_result (s : State) : s.finishEndOfScreen.result = .tick .vblank := rfl
@[simp] theorem finishEndOfScreen_runStarted (s : State) : s.finishEndOfScreen.runStarted = true := rfl
@[simp] theorem finishEndOfScreen_draws (s : State) : s.finishEndOfScreen.draws = s.draws := rfl
@[simp] theorem finishEndOfScreen_inbox (s : State) : s.finishEndOfScreen.inbox = s.inbox := rfl
@[simp] theorem finishEndOfScreen_cfg (s : State) : s.finishEndOfScreen.cfg = s.cfg := rfl

/-! ## deliverFrame -/

@[simp] theorem deliverFrame_mem (tmp : Memory) (pitch : Nat) (fb : List Byte) (s : State) : (s.deliverFrame tmp pitch fb).mem = s.mem := rfl
@[simp] theorem deliverFrame_snap (tmp : Memory) (pitch : Nat) (fb : List Byte) (s : State) : (s.deliverFrame tmp pitch fb).snap = s.snap := rfl
@[simp] theorem deliverFrame_lock (tmp : Memory) (pitch : Nat) (fb : List Byte) (s : State) : (s.deliverFrame tmp pitch fb).lock = s.lock := rfl
@[simp] theorem deliverFrame_shiftAmount (tmp : Memory) (pitch : Nat) (fb : List Byte) (s : State) : (s.deliverFrame tmp pitch fb).shiftAmount = s.shiftAmount := rfl
@[simp] theorem deliverFrame_shiftData (tmp : Memory) (pitch : Nat) (fb : List Byte) (s : State) : (s.deliverFrame tmp pitch fb).shiftData = s.shiftData := rfl
@[simp] theorem deliverFrame_prevSnd1 (tmp : Memory) (pitch : Nat) (fb : List Byte) (s : State) : (s.deliverFrame tmp pitch fb).prevSnd1 = s.prevSnd1 := rfl
@[simp] theorem deliverFrame_prevSnd2 (tmp : Memory) (pitch : Nat) (fb : List Byte) (s : State) : (s.deliverFrame tmp pitch fb).prevSnd2 = s.prevSnd2 := rfl
@[simp] theorem deliverFrame_phase (tmp : Memory) (pitch : Nat) (fb : List Byte) (s : State) : (s.deliverFrame tmp pitch fb).phase = s.phase := rfl
@[simp] theorem deliverFrame_lastTime (tmp : Memory) (pitch : Nat) (fb : List Byte) (s : State) : (s.deliverFrame tmp pitch fb).lastTime = s.lastTime := rfl
@[simp] theorem deliverFrame_quit (tmp : Memory) (pitch : Nat) (fb : List Byte) (s : State) : (s.deliverFrame tmp pitch fb).quit = s.quit := rfl
@[simp] theorem deliverFrame_fault (tmp : Memory) (pitch : Nat) (fb : List Byte) (s : State) : (s.deliverFrame tmp pitch fb).fault = s.fault := rfl
@[simp] theorem deliverFrame_trace (tmp : Memory) (pitch : Nat) (fb : List Byte) (s : State) : (s.deliverFrame tmp pitch fb).trace = s.trace ++ [.frame (decompress s.cfg tmp pitch fb)] := rfl
@[simp] theorem deliverFrame_result (tmp : Memory) (pitch : Nat) (fb : List Byte) (s : State) : (s.deliverFrame tmp pitch fb).result = .frame (decompress s.cfg tmp pitch fb) := rfl
@[simp] theorem deliverFrame_runStarted (tmp : Memory) (pitch : Nat) (fb : List Byte) (s : State) : (s.deliverFrame tmp pitch fb).runStarted = true := rfl
@[simp] theorem deliverFrame_draws (tmp : Memory) (pitch : Nat) (fb : List Byte) (s : State) : (s.deliverFrame tmp pitch fb).draws = s.draws := rfl
@[simp] theorem deliverFrame_inbox (tmp : Memory) (pitch : Nat) (fb : List Byte) (s : State) : (s.deliverFrame tmp pitch fb).inbox = s.inbox := rfl
@[simp] theorem deliverFrame_cfg (tmp : Memory) (pitch : Nat) (fb : List Byte) (s : State) : (s.deliverFrame tmp pitch fb).cfg = s.cfg := rfl

/-! ## retire -/

/-- Taking an operation out of the inbox writes nothing but the inbox. -/
theorem retire_eq (rest : List Request) (s : State) :
    s.retire rest = { s with inbox := if s.result = .waiting then s.inbox else rest } := by
  unfold State.retire
  split <;> rfl

@[simp] theorem retire_mem (rest : List Request) (s : State) : (s.retire rest).mem = s.mem := by rw [retire_eq]
@[simp] theorem retire_snap (rest : List Request) (s : State) : (s.retire rest).snap = s.snap := by rw [retire_eq]
@[simp] theorem retire_lock (rest : List Request) (s : State) : (s.retire rest).lock = s.lock := by rw [retire_eq]
@[simp] theorem retire_shiftAmount (rest : List Request) (s : State) : (s.retire rest).shiftAmount = s.shiftAmount := by rw [retire_eq]
@[simp] theorem retire_shiftData (rest : List Request) (s : State) : (s.retire rest).shiftData = s.shiftData := by rw [retire_eq]
@[simp] theorem retire_prevSnd1 (rest : List Request) (s : State) : (s.retire rest).prevSnd1 = s.prevSnd1 := by rw [retire_eq]
@[simp] theorem retire_prevSnd2 (rest : List Request) (s : State) : (s.retire rest).prevSnd2 = s.prevSnd2 := by rw [retire_eq]
@[simp] theorem retire_phase (rest : List Request) (s : State) : (s.retire rest).phase = s.phase := by rw [retire_eq]
@[simp] theorem retire_lastTime (rest : List Request) (s : State) : (s.retire rest).lastTime = s.lastTime := by rw [retire_eq]
@[simp] theorem retire_quit (rest : List Request) (s : State) : (s.retire rest).quit = s.quit := by rw [retire_eq]
@[simp] theorem retire_fault (rest : List Request) (s : State) : (s.retire rest).fault = s.fault := by rw [retire_eq]
@[simp] theorem retire_trace (rest : List Request) (s : State) : (s.retire rest).trace = s.trace := by rw [retire_eq]
@[simp] theorem retire_result (rest : List Request) (s : State) : (s.retire rest).result = s.result := by rw [retire_eq]
@[simp] theorem retire_runStarted (rest : List Request) (s : State) : (s.retire rest).runStarted = s.runStarted := by rw [retire_eq]
@[simp] theorem retire_draws (rest : List Request) (s : State) : (s.retire rest).draws = s.draws := by rw [retire_eq]
theorem retire_inbox (rest : List Request) (s : State) :
    (s.retire rest).inbox = if s.result = .waiting then s.inbox else rest := by rw [retire_eq]
@[simp] theorem retire_cfg (rest : List Request) (s : State) : (s.retire rest).cfg = s.cfg := by rw [retire_eq]

end Sys2Proof.Machine.State
end

