-- ==== Sys2Proof/Laws/Ops.lean ====
section
/-!
SUPPORT. What the shared operations can do, said once: if one answers a next state, then what holds of it.
-/
namespace Sys2Proof.Machine

@[simp] theorem unlessTerminated_running {s : State} (h : s.fault = none) (body : Answer) :
    unlessTerminated s body = body := by
  simp [unlessTerminated, h]

@[simp] theorem unlessTerminated_terminated {s : State} {v : Violation} (h : s.fault = some v) (body : Answer) :
    unlessTerminated s body = .fault (.terminated v) := by
  simp [unlessTerminated, h]

/-- An operation goes on only in a block without a fault. -/
theorem unlessTerminated_next {s t : State} {body : Answer} :
    unlessTerminated s body = .next t ↔ s.fault = none ∧ body = .next t := by
  cases h : s.fault <;> simp [unlessTerminated, h]

theorem unlessTerminated_refused {s : State} {r : Refusal} {body : Answer} :
    unlessTerminated s body = .refused r ↔ s.fault = none ∧ body = .refused r := by
  cases h : s.fault <;> simp [unlessTerminated, h]

/-- Raising a violation writes `fault` and nothing else of S. -/
theorem raise_eq (v : Violation) (s : State) :
    raise v s = .next { s with fault := some v, result := .nothing, runStarted := true } := rfl

/-- A waiting operation has done nothing. -/
theorem wait_eq (s : State) : wait s = .next { s with result := .waiting, runStarted := true } := rfl

/-- The lock is taken when it is free, and only then. -/
theorem acquire_eq_some {who : LockOwner} {s t : State} :
    s.acquire who = some t ↔ s.lock = .free ∧ t = { s with lock := who } := by
  unfold State.acquire
  split <;> simp_all [eq_comm]

@[simp] theorem acquire_free {who : LockOwner} {s : State} (h : s.lock = .free) :
    s.acquire who = some { s with lock := who } := by
  simp [State.acquire, h]

@[simp] theorem acquire_held {who : LockOwner} {s : State} (h : s.lock ≠ .free) : s.acquire who = none := by
  simp [State.acquire, h]

/-- A settled answer is a next state exactly when the operation's is, with the inbox brought up to date. -/
theorem settle_next {rest : List Request} {x : Answer} {t : State} :
    settle rest x = .next t ↔ ∃ u, x = .next u ∧ t = u.retire rest := by
  cases x <;> simp [settle, eq_comm]

/-- What a step can do: stand still with nothing issued, or take the oldest operation. -/
theorem step_next {s t : State} (h : step s = .next t) :
    (s.inbox = [] ∧ t = s) ∨
    ∃ r rest i u, s.inbox = r :: rest ∧ decodeRequest s.cfg r = .ok i ∧ admits s.cfg r.agent i = true ∧
      exec i s = .next u ∧ t = u.retire rest := by
  unfold step at h
  split at h
  · rename_i hi
    exact .inl ⟨hi, by simpa using h.symm⟩
  · rename_i r rest hi
    unfold takeRequest at h
    split at h
    · simp at h
    · rename_i i hd
      split at h
      · rename_i ha
        obtain ⟨u, hu, rfl⟩ := settle_next.1 h
        exact .inr ⟨r, rest, i, u, hi, hd, ha, hu, rfl⟩
      · simp at h

end Sys2Proof.Machine
end

