-- ==== Sys2Proof/Laws/Operands.lean ====
section
/-!
SUPPORT. What the operand assemblies, the trigger masks and the tick's choice of an arm give, in natural numbers or bit by
bit, so that no later proof unfolds them.
-/
namespace Sys2Proof.Machine

theorem amountOf_toNat (v : Byte) : (amountOf v).toNat = v.toNat % 8 := by
  simp [amountOf, BitVec.extractLsb'_toNat]

theorem shiftResult_toNat (d : Accumulator) (a : Amount) :
    (shiftResult d a).toNat = d.toNat / 2 ^ (8 - a.toNat) % 256 := by
  simp [shiftResult, Nat.shiftRight_eq_div_pow]

/-- The byte is the new high byte and the old high byte the new low byte: nothing overlaps. -/
theorem pushByte_eq_append (d : Accumulator) (v : Byte) :
    pushByte d v = (v ++ d.extractLsb' 8 8 : BitVec 16) := by
  apply BitVec.eq_of_getLsbD_eq
  intro i hi
  simp only [pushByte, BitVec.getLsbD_or, BitVec.getLsbD_ushiftRight, BitVec.getLsbD_shiftLeft,
    BitVec.getLsbD_setWidth, BitVec.getLsbD_append, BitVec.getLsbD_extractLsb']
  by_cases h : i < 8
  · simp [h]
  · have h16 : d.getLsbD (8 + i) = false := BitVec.getLsbD_of_ge d (8 + i) (by omega)
    simp [h, h16, hi, show i - 8 < 16 by omega]

theorem risingBits_getLsbD (old v : Byte) (i : Nat) :
    (risingBits old v).getLsbD i = (v.getLsbD i && !old.getLsbD i) := by
  by_cases h : i < 8
  · simp [risingBits, h]
  · simp [risingBits, h, BitVec.getLsbD_of_ge v i (by omega)]

theorem triggerMask_second (old v : Byte) : triggerMask .second old v = risingBits old v := rfl

/-- What TICK's tests decide (43_interrupt_cadence.md R175). -/
theorem tickArm_cases (t : Nat) (s : State) :
    (s.quit = true ∧ tickArm t s = .quit) ∨
    (s.quit = false ∧ t = s.lastTime ∧ tickArm t s = .unchanged) ∨
    (s.quit = false ∧ t ≠ s.lastTime ∧ s.phase = .awaitingMid ∧ tickArm t s = .mid) ∨
    (s.quit = false ∧ t ≠ s.lastTime ∧ s.phase = .awaitingVBlank ∧ tickArm t s = .endOfScreen) := by
  unfold tickArm
  cases s.quit <;> by_cases h : t = s.lastTime <;> cases s.phase <;> simp [h]

end Sys2Proof.Machine
end

