-- ==== Sys2Proof/Laws/Exec.lean ====
section
/-!
SUPPORT. Everything executing an operation can do when it answers a next state, said once per operation; the provers cite
`exec_next` and never unfold a meaning.
-/
namespace Sys2Proof.Machine

/-- The next states of an operation: `t` from `s`. -/
def Effect (s t : State) : Instr → Prop
  | .inInp0 => s.fault = none ∧ t = s.useDraw.respond (.byte (s.inputAnswer (s.cfg.inputPort 0)))
  | .inInp1 => s.fault = none ∧ t = s.useDraw.respond (.byte (s.inputAnswer (s.cfg.inputPort 1)))
  | .inInp2 => s.fault = none ∧ t = s.useDraw.respond (.byte (s.inputAnswer (s.cfg.inputPort 2)))
  | .inInpNext p => s.fault = none ∧ t = s.useDraw.respond (.byte (s.inputAnswer p))
  | .inShres => s.fault = none ∧ t = s.respond (.byte (shiftResult s.shiftData s.shiftAmount))
  | .inWdog => s.fault = none ∧ t = s.respond (.byte s.cfg.wdogRead)
  | .outShamt v => s.fault = none ∧ t = { s with shiftAmount := amountOf v }.respond (.triggers 0)
  | .outSnd1 v => s.fault = none ∧
      t = ({ s with prevSnd1 := v }.emit (.trig .first (triggerSet .first s.prevSnd1 v))).respond
        (.triggers (triggerSet .first s.prevSnd1 v))
  | .outShdata v => s.fault = none ∧ t = { s with shiftData := pushByte s.shiftData v }.respond (.triggers 0)
  | .outSnd2 v => s.fault = none ∧
      t = ({ s with prevSnd2 := v }.emit (.trig .second (triggerSet .second s.prevSnd2 v))).respond
        (.triggers (triggerSet .second s.prevSnd2 v))
  | .outWdog _ => s.fault = none ∧ t = s.respond (.triggers 0)
  | .inUnmapped p => s.fault = none ∧
      ((s.cfg.strictPorts = true ∧ t = (s.record (.unmappedPort .read p)).respond .nothing) ∨
        (s.cfg.strictPorts = false ∧ t = s.respond (.byte 0x00)))
  | .outUnmapped p _ => s.fault = none ∧
      ((s.cfg.strictPorts = true ∧ t = (s.record (.unmappedPort .write p)).respond .nothing) ∨
        (s.cfg.strictPorts = false ∧ t = s.respond (.triggers 0)))
  | .tick x => s.fault = none ∧
      ((s.quit = true ∧ t = (s.emit .quitSeen).respond (.tick .quit)) ∨
        (s.quit = false ∧ x = s.lastTime ∧ t = s.respond (.tick .noInterrupt)) ∨
        (s.quit = false ∧ x ≠ s.lastTime ∧ s.phase = .awaitingMid ∧ t = s.midArm x) ∨
        (s.quit = false ∧ x ≠ s.lastTime ∧ s.phase = .awaitingVBlank ∧
          ((s.lock = .free ∧ t = (({ s with lock := .producer }.beginEndOfScreen x).copyIn).finishEndOfScreen) ∨
            (s.lock ≠ .free ∧ t = s.respond .waiting))))
  | .memrd a => s.fault = none ∧
      ((memSize ≤ a ∧ t = (s.record (.memOutOfRange a)).respond .nothing) ∨
        (a < memSize ∧ t = s.respond (.byte (s.mem.read a))))
  | .memwr a v => s.fault = none ∧
      ((memSize ≤ a ∧ t = (s.record (.memOutOfRange a)).respond .nothing) ∨
        (a < memSize ∧ t = { s with mem := s.mem.write a v }.respond .done))
  | .load offset buffer => s.fault = none ∧
      ((memSize < offset + buffer.length ∧ t = (s.record (.loadOverflow offset buffer.length)).respond .nothing) ∨
        (offset + buffer.length ≤ memSize ∧ t = { s with mem := s.mem.load offset buffer }.respond .done))
  | .snapshot => s.fault = none ∧ t = s.respond (.copy (s.mem.bytes s.cfg.vramBase vramLen))
  | .getframe pitch fb => s.fault = none ∧ frameBufferOk pitch fb = true ∧
      ((s.lock = .free ∧ t = ({ s with lock := .consumer }.release).deliverFrame s.snap pitch fb) ∨
        (s.lock ≠ .free ∧ t = s.respond .waiting))
  | .setquit => s.fault = none ∧ t = { s with quit := true }.respond .done
  | .reset => s.runInProgress = false ∧ t = s.startRun.respond .done

theorem execTick_next {x : Nat} {s t : State} (h : execTick x s = .next t) : Effect s t (.tick x) := by
  obtain ⟨hf, h⟩ := unlessTerminated_next.1 h
  refine ⟨hf, ?_⟩
  rcases tickArm_cases x s with ⟨hq, ha⟩ | ⟨hq, hx, ha⟩ | ⟨hq, hx, hp, ha⟩ | ⟨hq, hx, hp, ha⟩ <;>
    simp only [ha, Host.Outcome.next.injEq] at h
  · exact .inl ⟨hq, h.symm⟩
  · exact .inr (.inl ⟨hq, hx, h.symm⟩)
  · exact .inr (.inr (.inl ⟨hq, hx, hp, h.symm⟩))
  · refine .inr (.inr (.inr ⟨hq, hx, hp, ?_⟩))
    by_cases hl : s.lock = .free
    · exact .inl ⟨hl, by simpa [hl] using h.symm⟩
    · exact .inr ⟨hl, by simpa [hl, wait] using h.symm⟩

theorem execGetframe_next {pitch : Nat} {fb : List Byte} {s t : State} (h : execGetframe pitch fb s = .next t) :
    Effect s t (.getframe pitch fb) := by
  obtain ⟨hf, h⟩ := unlessTerminated_next.1 h
  refine ⟨hf, ?_⟩
  split at h
  · rename_i hb
    refine ⟨hb, ?_⟩
    by_cases hl : s.lock = .free
    · exact .inl ⟨hl, by simpa [hl] using h.symm⟩
    · exact .inr ⟨hl, by simpa [hl, wait] using h.symm⟩
  · simp at h

/-- What executing an operation can do: if it answers a next state, that state is one of the operation's effects. -/
theorem exec_next {i : Instr} {s t : State} (h : exec i s = .next t) : Effect s t i := by
  cases i with
  | tick x => exact execTick_next h
  | getframe pitch fb => exact execGetframe_next h
  | reset =>
    simp only [exec, execReset] at h
    split at h
    · simp at h
    · rename_i hr
      exact ⟨by simpa using hr, by simpa using h.symm⟩
  | inUnmapped p =>
    obtain ⟨hf, h⟩ := unlessTerminated_next.1 h
    cases hs : s.cfg.strictPorts <;> simp [hs, raise] at h <;> simp [Effect, hf, hs, h]
  | outUnmapped p v =>
    obtain ⟨hf, h⟩ := unlessTerminated_next.1 h
    cases hs : s.cfg.strictPorts <;> simp [hs, raise] at h <;> simp [Effect, hf, hs, h]
  | memrd a =>
    obtain ⟨hf, h⟩ := unlessTerminated_next.1 h
    refine ⟨hf, ?_⟩
    split at h
    · exact .inl ⟨‹_›, by simpa [raise] using h.symm⟩
    · exact .inr ⟨by omega, by simpa using h.symm⟩
  | memwr a v =>
    obtain ⟨hf, h⟩ := unlessTerminated_next.1 h
    refine ⟨hf, ?_⟩
    split at h
    · exact .inl ⟨‹_›, by simpa [raise] using h.symm⟩
    · exact .inr ⟨by omega, by simpa using h.symm⟩
  | load offset buffer =>
    obtain ⟨hf, h⟩ := unlessTerminated_next.1 h
    refine ⟨hf, ?_⟩
    split at h
    · exact .inl ⟨‹_›, by simpa [raise] using h.symm⟩
    · exact .inr ⟨by omega, by simpa using h.symm⟩
  | inInp0 => exact (unlessTerminated_next.1 h).imp_right fun h => by simpa using h.symm
  | inInp1 => exact (unlessTerminated_next.1 h).imp_right fun h => by simpa using h.symm
  | inInp2 => exact (unlessTerminated_next.1 h).imp_right fun h => by simpa using h.symm
  | inInpNext p => exact (unlessTerminated_next.1 h).imp_right fun h => by simpa using h.symm
  | inShres => exact (unlessTerminated_next.1 h).imp_right fun h => by simpa using h.symm
  | inWdog => exact (unlessTerminated_next.1 h).imp_right fun h => by simpa using h.symm
  | outShamt v => exact (unlessTerminated_next.1 h).imp_right fun h => by simpa using h.symm
  | outSnd1 v => exact (unlessTerminated_next.1 h).imp_right fun h => by simpa using h.symm
  | outShdata v => exact (unlessTerminated_next.1 h).imp_right fun h => by simpa using h.symm
  | outSnd2 v => exact (unlessTerminated_next.1 h).imp_right fun h => by simpa using h.symm
  | outWdog v => exact (unlessTerminated_next.1 h).imp_right fun h => by simpa using h.symm
  | snapshot => exact (unlessTerminated_next.1 h).imp_right fun h => by simpa using h.symm
  | setquit => exact (unlessTerminated_next.1 h).imp_right fun h => by simpa using h.symm

end Sys2Proof.Machine
end

