-- ==== Sys2Proof/Laws/PerInstr.lean ====
section
/-!
SUPPORT. Statements made instruction by instruction. HeadWord: the head word an operation is encoded to is one the
decoder accepts: its selector is below 0xA, and below 0x2 or with H[15:0] = 0 (30_encoding.md R82, R97 c).
-/
namespace Sys2Proof.Laws

namespace HeadWord

/-- The head word of `i` is a valid one, under any parameters. -/
def Statement (i : Instr) : Prop :=
  ∀ c : Config, headOp c (encode c i).1 < 0xA ∧ (headOp c (encode c i).1 < 0x2 ∨ headLow c (encode c i).1 = 0)

theorem inInp0 : Statement .inInp0 :=
  fun _ => ⟨by simp [encode, headOp_headOf], .inl (by simp [encode, headOp_headOf])⟩

theorem inInp1 : Statement .inInp1 :=
  fun _ => ⟨by simp [encode, headOp_headOf], .inl (by simp [encode, headOp_headOf])⟩

theorem inInp2 : Statement .inInp2 :=
  fun _ => ⟨by simp [encode, headOp_headOf], .inl (by simp [encode, headOp_headOf])⟩

theorem inInpNext (port : Nat) : Statement (.inInpNext port) :=
  fun _ => ⟨by simp [encode, headOp_headOf], .inl (by simp [encode, headOp_headOf])⟩

theorem inShres : Statement .inShres :=
  fun _ => ⟨by simp [encode, headOp_headOf], .inl (by simp [encode, headOp_headOf])⟩

theorem inWdog : Statement .inWdog :=
  fun _ => ⟨by simp [encode, headOp_headOf], .inl (by simp [encode, headOp_headOf])⟩

theorem outShamt (v : Byte) : Statement (.outShamt v) :=
  fun _ => ⟨by simp [encode, headOp_headOf], .inl (by simp [encode, headOp_headOf])⟩

theorem outSnd1 (v : Byte) : Statement (.outSnd1 v) :=
  fun _ => ⟨by simp [encode, headOp_headOf], .inl (by simp [encode, headOp_headOf])⟩

theorem outShdata (v : Byte) : Statement (.outShdata v) :=
  fun _ => ⟨by simp [encode, headOp_headOf], .inl (by simp [encode, headOp_headOf])⟩

theorem outSnd2 (v : Byte) : Statement (.outSnd2 v) :=
  fun _ => ⟨by simp [encode, headOp_headOf], .inl (by simp [encode, headOp_headOf])⟩

theorem outWdog (v : Byte) : Statement (.outWdog v) :=
  fun _ => ⟨by simp [encode, headOp_headOf], .inl (by simp [encode, headOp_headOf])⟩

theorem inUnmapped (port : Nat) : Statement (.inUnmapped port) :=
  fun _ => ⟨by simp [encode, headOp_headOf], .inl (by simp [encode, headOp_headOf])⟩

theorem outUnmapped (port : Nat) (v : Byte) : Statement (.outUnmapped port v) :=
  fun _ => ⟨by simp [encode, headOp_headOf], .inl (by simp [encode, headOp_headOf])⟩

theorem tick (t : Nat) : Statement (.tick t) :=
  fun _ => ⟨by simp [encode, headOp_headOf], .inr (by simp [encode, headLow_headOf])⟩

theorem memrd (a : Nat) : Statement (.memrd a) :=
  fun _ => ⟨by simp [encode, headOp_headOf], .inr (by simp [encode, headLow_headOf])⟩

theorem memwr (a : Nat) (v : Byte) : Statement (.memwr a v) :=
  fun _ => ⟨by simp [encode, headOp_headOf], .inr (by simp [encode, headLow_headOf])⟩

theorem load (offset : Nat) (buffer : List Byte) : Statement (.load offset buffer) :=
  fun _ => ⟨by simp [encode, headOp_headOf], .inr (by simp [encode, headLow_headOf])⟩

theorem snapshot : Statement .snapshot :=
  fun _ => ⟨by simp [encode, headOp_headOf], .inr (by simp [encode, headLow_headOf])⟩

theorem getframe (pitch : Nat) (fb : List Byte) : Statement (.getframe pitch fb) :=
  fun _ => ⟨by simp [encode, headOp_headOf], .inr (by simp [encode, headLow_headOf])⟩

theorem setquit : Statement .setquit :=
  fun _ => ⟨by simp [encode, headOp_headOf], .inr (by simp [encode, headLow_headOf])⟩

theorem reset : Statement .reset :=
  fun _ => ⟨by simp [encode, headOp_headOf], .inr (by simp [encode, headLow_headOf])⟩

end HeadWord

end Sys2Proof.Laws
end

