-- ==== Sys2Proof/Laws/Video.lean ====
section
/-!
SUPPORT. What the video operations give, cell by cell, so that no later proof unfolds them.
-/
namespace Sys2Proof.Machine

/-- R199's condition in plain numbers. -/
theorem frameBufferOk_iff (pitch : Nat) (fb : List Byte) :
    frameBufferOk pitch fb = true ↔ 224 ≤ pitch ∧ 255 * pitch + 224 ≤ fb.length := by
  rw [frameBufferOk, Bool.and_eq_true, decide_eq_true_iff, decide_eq_true_iff]
  rfl

@[simp] theorem length_decompress (c : Config) (tmp : Memory) (pitch : Nat) (fb : List Byte) :
    (decompress c tmp pitch fb).length = fb.length := by
  simp [decompress]

/-- A cell of the picture holds its pixel, every other cell what it held. -/
theorem getElem?_decompress (c : Config) (tmp : Memory) (pitch : Nat) (fb : List Byte) (k : Nat) :
    (decompress c tmp pitch fb)[k]? = fb[k]?.map fun old =>
      if k % pitch < 224 ∧ k / pitch < 256 then pixelAt c tmp (k % pitch) (k / pitch) else old := by
  simp [decompress, imgW, imgH]

end Sys2Proof.Machine
end

