-- ==== Sys2Proof/Tests/Slice0.lean ====
section
/-!
SUPPORT. The model's own tests: expected values from 95_test_vectors.md (the vector is named at each), words written out
bit by bit from 30_encoding.md R81, R82, R84, the well-formedness smoke, and for every statement with hypotheses a state
and operands that meet them.
-/
namespace Sys2Proof.Tests

open Sys2Proof Sys2Proof.Machine

/-! ## Helpers -/

/-- The result of an answer that is a next state. -/
def resultOf : Answer → Option Result
  | .next t => some t.result
  | .fault _ => none
  | .refused _ => none

/-- A field of the state an answer leads to. -/
def fieldOf {α : Type} (f : State → α) : Answer → Option α
  | .next t => some (f t)
  | .fault _ => none
  | .refused _ => none

/-- The refusal of an answer. -/
def refusalOf : Answer → Option Refusal
  | .next _ => none
  | .fault _ => none
  | .refused r => some r

/-- The reset state in the production treatment of unmapped ports. -/
def production : State := { State.reset with cfg := { strictPorts := false } }

/-- The reset state with the phase at AwaitingVBlank and one byte of the window set. -/
def atVBlank : State := { State.reset with phase := .awaitingVBlank, mem := [(0x2400, 0xAA)] }

/-- A block whose run a violation has ended. -/
def terminated : State := { State.reset with fault := some (.unmappedPort .read 4), runStarted := true }

/-- A caller's buffer of exactly 224 x 256 bytes. -/
def blankFrame : List Byte := List.replicate 57344 0

/-! ## Well-formedness smoke: each check refuses an ill-formed term -/

theorem test_wf_standard : Config.standard.wf = true := by decide
theorem test_wf_window_outside : Config.wf { vramBase := 0xE401 } = false := by decide
theorem test_wf_window_last : Config.wf { vramBase := 0xE400 } = true := by decide
theorem test_wf_read_ports_clash : Config.wf { pShres := 6 } = false := by decide
theorem test_wf_write_ports_clash : Config.wf { pSnd1 := 5 } = false := by decide
theorem test_wf_port_too_wide : Config.wf { portWidth := 2 } = false := by decide
theorem test_wf_wide_ports : Config.wf { portWidth := 16, inputPorts := [0, 1, 2, 7, 0x0102] } = true := by decide
theorem test_wf_input_ports_clash : Config.wf { inputPorts := [0, 1, 0] } = false := by decide
theorem test_wf_last_time_too_wide : Config.wf { timeWidth := 8, lastTimeReset := 256 } = false := by decide
theorem test_wf_absent_input_port : Instr.wf { inputPorts := [0, 1] } .inInp2 = false := by decide
theorem test_wf_no_further_input_port : Instr.wf Config.standard (.inInpNext 2) = false := by decide
theorem test_wf_unmapped_too_wide : Instr.wf Config.standard (.outUnmapped 256 0) = false := by decide
theorem test_wf_time_too_wide : Instr.wf Config.standard (.tick 0x10000000000000000) = false := by decide
theorem test_wf_mapped_read_is_no_unmapped : Instr.wf Config.standard (.inUnmapped 3) = false := by decide
theorem test_wf_unmapped_read : Instr.wf Config.standard (.inUnmapped 4) = true := by decide
theorem test_wf_mapped_write_is_no_unmapped : Instr.wf Config.standard (.outUnmapped 4 0) = false := by decide
theorem test_wf_unmapped_write : Instr.wf Config.standard (.outUnmapped 0 1) = true := by decide

/-! ## Decoding: one word per row, op H[19:16], port H[15:8], data H[7:0] -/

theorem test_decode_inInp0 : decode Config.standard 0b0000_00000000_00000000 {} = .ok .inInp0 := by decide
theorem test_decode_inInp1 : decode Config.standard 0b0000_00000001_00000000 {} = .ok .inInp1 := by decide
theorem test_decode_inInp2 : decode Config.standard 0b0000_00000010_11111111 {} = .ok .inInp2 := by decide
theorem test_decode_inShres : decode Config.standard 0b0000_00000011_00000000 {} = .ok .inShres := by decide
theorem test_decode_inWdog : decode Config.standard 0b0000_00000110_00000000 {} = .ok .inWdog := by decide
theorem test_decode_outShamt : decode Config.standard 0b0001_00000010_00000100 {} = .ok (.outShamt 4) := by decide
theorem test_decode_outSnd1 : decode Config.standard 0b0001_00000011_00100001 {} = .ok (.outSnd1 0x21) := by decide
theorem test_decode_outShdata : decode Config.standard 0b0001_00000100_10000001 {} = .ok (.outShdata 0x81) := by
  decide
theorem test_decode_outSnd2 : decode Config.standard 0b0001_00000101_00010001 {} = .ok (.outSnd2 0x11) := by decide
theorem test_decode_outWdog : decode Config.standard 0b0001_00000110_11111110 {} = .ok (.outWdog 0xFE) := by decide
theorem test_decode_inUnmapped : decode Config.standard 0b0000_10000100_00000000 {} = .ok (.inUnmapped 0x84) := by
  decide
theorem test_decode_outUnmapped : decode Config.standard 0b0001_00000001_10000000 {} = .ok (.outUnmapped 1 0x80) := by
  decide
theorem test_decode_tick : decode Config.standard 0b0010_00000000_00000000 { time := 7 } = .ok (.tick 7) := by decide
theorem test_decode_memrd : decode Config.standard 0b0011_00000000_00000000 { address := 65536 } = .ok (.memrd 65536) := by
  decide
theorem test_decode_memwr :
    decode Config.standard 0b0100_00000000_00000000 { address := 3, value := 9 } = .ok (.memwr 3 9) := by decide
theorem test_decode_load :
    decode Config.standard 0b0101_00000000_00000000 { offset := 8, buffer := [1, 2] } = .ok (.load 8 [1, 2]) := by decide
theorem test_decode_snapshot : decode Config.standard 0b0110_00000000_00000000 {} = .ok .snapshot := by decide
theorem test_decode_getframe :
    decode Config.standard 0b0111_00000000_00000000 { pitch := 224, frameBuffer := [5] } = .ok (.getframe 224 [5]) := by
  decide
theorem test_decode_setquit : decode Config.standard 0b1000_00000000_00000000 {} = .ok .setquit := by decide
theorem test_decode_reset : decode Config.standard 0b1001_00000000_00000000 {} = .ok .reset := by decide
theorem test_decode_reserved_selector : decode Config.standard 0xA0000 {} = .error (.selector 0xA) := by decide
theorem test_decode_command_bits : decode Config.standard 0x20001 {} = .error (.operandBits 1) := by decide
theorem test_decode_moved_port : decode { pWdog := 9 } 0x10906 {} = .ok (.outWdog 6) := by decide
/-- Under PORT_WIDTH = 16 the port field has 16 bits and the selector stands above it. -/
theorem test_decode_wide_port : decode { portWidth := 16 } 0x1010203 {} = .ok (.outUnmapped 0x0102 0x03) := by decide
theorem test_decode_fourth_input_port : decode { inputPorts := [0, 1, 2, 7] } 0x00700 {} = .ok (.inInpNext 7) := by decide
theorem test_decode_time_width : decode { timeWidth := 8 } 0x20000 { time := 0x105 } = .ok (.tick 5) := by decide
theorem test_decode_table_word : decodeTableWord 24 0x102FF = some (.outShamt 0xFF) := by decide
theorem test_decode_table_word_invalid : decodeTableWord 24 0xF0000 = none := by decide
theorem test_encode_outSnd1 : (encode Config.standard (.outSnd1 0x03)).1 = 0x10303 := by decide
theorem test_encode_inUnmapped : (encode Config.standard (.inUnmapped 4)).1 = 0x00400 := by decide

/-! ## Shift register -/

/-- SH9: the high bits of the amount byte are ignored. -/
theorem test_shamt_all_ones : fieldOf State.shiftAmount (exec (.outShamt 0xFF) State.reset) = some 7 := by decide
/-- SH11. -/
theorem test_shamt_bit3_ignored : fieldOf State.shiftAmount (exec (.outShamt 0x0C) State.reset) = some 4 := by decide
/-- SH7. -/
theorem test_shdata_pushes :
    fieldOf State.shiftData (exec (.outShdata 0x0F) { State.reset with shiftData := 0xFF00 }) = some 0x0FFF := by decide
/-- SH3, a = 4. -/
theorem test_shres_window :
    resultOf (exec .inShres { State.reset with shiftData := 0x1234, shiftAmount := 4 }) = some (.byte 0x23) := by decide
/-- R137, D = 0xABCD, a = 0: the high byte, not zero. -/
theorem test_shres_amount_zero :
    resultOf (exec .inShres { State.reset with shiftData := 0xABCD }) = some (.byte 0xAB) := by decide
/-- S1 by way of the pseudo-operation WINDOW: amount 4, bytes 0xFF then 0x0F. -/
theorem test_window_s1 : resultOf (execAll (shiftWindow 0x0F 0xFF 4) State.reset) = some (.byte 0xFF) := by decide

/-! ## Sound -/

/-- SN11: bit 0 falling still fires, bit 1 steady does not. -/
theorem test_snd1_falling_bit0 :
    resultOf (exec (.outSnd1 0x02) { State.reset with prevSnd1 := 0x03 }) = some (.triggers 0x0001) := by decide
/-- SN9. -/
theorem test_snd1_edges_and_hold :
    resultOf (exec (.outSnd1 0xFF) { State.reset with prevSnd1 := 0x01 }) = some (.triggers 0x00FF) := by decide
/-- SN15: bit 0 of the second port is an ordinary edge. -/
theorem test_snd2_no_hold :
    resultOf (exec (.outSnd2 0x03) { State.reset with prevSnd2 := 0x03 }) = some (.triggers 0x0000) := by decide
/-- SN20: channels 8, 9, 10, 11, 13, 14, 15. -/
theorem test_snd2_channels :
    resultOf (exec (.outSnd2 0xFF) { State.reset with prevSnd2 := 0x10 }) = some (.triggers 0xEF00) := by decide
/-- The pseudo-operation PULSE on the second port: the write of 0 fires nothing and leaves 0. -/
theorem test_pulse_second_port :
    fieldOf State.prevSnd2 (execAll (pulse Config.standard 5 0x10) State.reset) = some 0x00 := by decide

/-! ## Ports -/

/-- PD1: an input port answers a byte and uses one draw. -/
theorem test_input_uses_a_draw : fieldOf State.draws (exec .inInp1 State.reset) = some 1 := by decide
theorem test_further_input_port :
    resultOf (exec (.inInpNext 7) State.reset) = some (.byte (Config.inputByte 7 0)) := rfl
theorem test_input0_leaves_fault : fieldOf State.fault (exec .inInp0 State.reset) = some none := by decide
/-- PD7: IN 2 is the third input port, not the shift amount. -/
theorem test_input2_is_a_draw :
    resultOf (exec .inInp2 { State.reset with shiftAmount := 5 }) = some (.byte (Config.inputByte 2 0)) := rfl
/-- PD3. -/
theorem test_wdog_read : resultOf (exec .inWdog State.reset) = some (.byte 0x00) := by decide
/-- PD5. -/
theorem test_wdog_write : resultOf (exec (.outWdog 0xFF) State.reset) = some (.triggers 0) := by decide
/-- PD4, strict. -/
theorem test_unmapped_read_strict :
    fieldOf State.fault (exec (.inUnmapped 4) State.reset) = some (some (.unmappedPort .read 4)) := by decide
/-- PD4, production. -/
theorem test_unmapped_read_production : resultOf (exec (.inUnmapped 255) production) = some (.byte 0x00) := by decide
/-- PD6, strict. -/
theorem test_unmapped_write_strict :
    fieldOf State.fault (exec (.outUnmapped 7 1) State.reset) = some (some (.unmappedPort .write 7)) := by decide
/-- PD6, production. -/
theorem test_unmapped_write_production : resultOf (exec (.outUnmapped 0 1) production) = some (.triggers 0) := by
  decide

/-! ## Cadence -/

/-- RS5: time 0 equals the reset value of `lastTime`. -/
theorem test_tick_zero : resultOf (exec (.tick 0) State.reset) = some (.tick .noInterrupt) := by decide
/-- RS4. -/
theorem test_tick_first : resultOf (exec (.tick 1) State.reset) = some (.tick .mid) := by decide
/-- CA6: the snapshot sees writes made before the TICK. -/
theorem test_tick_snapshot : fieldOf (fun t => t.snap.read 0) (exec (.tick 2) atVBlank) = some 0xAA := by decide
/-- CA4: quit wins, and `lastTime` stays. -/
theorem test_tick_quit :
    fieldOf State.lastTime (exec (.tick 2) { State.reset with quit := true, lastTime := 1 }) = some 1 := by decide
/-- CA1, the step from 7 back to 3: a time that goes back counts as changed. -/
theorem test_frame_time_goes_back :
    resultOf (execAll (frameTicks 7 3) State.reset) = some (.tick .vblank) := by decide
theorem test_setquit : fieldOf State.quit (exec .setquit State.reset) = some true := by decide

/-! ## Script lines -/

/-- P-programs of 95_test_vectors.md: `OUT 2, 0x04` and `C: GETFRAME 224`, with their head words 0x10204 and 0x70000. -/
theorem test_script_lines :
    scriptRequests Config.standard
      [{ op := .portOut 2 0x04 }, { consumer := true, op := .getframe 224 [] }] =
    [{ agent := .cpuSide, head := 0x10204 },
      { agent := .consumer, head := 0x70000, operands := { pitch := 224 } }] := by decide

/-! ## Memory -/

/-- M3: no wrap. -/
theorem test_memrd_out_of_range :
    fieldOf State.fault (exec (.memrd 65536) State.reset) = some (some (.memOutOfRange 65536)) := by decide
/-- M5. -/
theorem test_memrd_after_reset : resultOf (exec (.memrd 0x2000) State.reset) = some (.byte 0x00) := by decide
/-- M2. -/
theorem test_memwr_highest :
    fieldOf (fun t => t.mem.read 65535) (exec (.memwr 65535 0x34) State.reset) = some 0x34 := by decide
/-- M4. -/
theorem test_memwr_out_of_range :
    fieldOf State.mem (exec (.memwr 70000 1) atVBlank) = some [(0x2400, 0xAA)] := by decide
/-- M6. -/
theorem test_load_ascends :
    fieldOf State.mem (exec (.load 0x1FFE [0xAA, 0xBB]) State.reset) = some [(0x1FFE, 0xAA), (0x1FFF, 0xBB)] := by decide
/-- M9, M10 are the two sides of the boundary; M10 faults. -/
theorem test_load_empty_beyond :
    fieldOf State.fault (exec (.load 65537 []) State.reset) = some (some (.loadOverflow 65537 0)) := by decide
/-- M9. -/
theorem test_load_empty_at_the_end : fieldOf State.fault (exec (.load 65536 []) State.reset) = some none := by decide
/-- RS6 and M11, at the copy's first byte. -/
theorem test_snapshot_first_byte :
    resultOf (exec .snapshot atVBlank) = some (.copy (atVBlank.mem.bytes 0x2400 7168)) ∧
      (atVBlank.mem.bytes 0x2400 2) = [0xAA, 0x00] := ⟨rfl, by decide⟩
/-- Writing the background unlists a cell: the canonical form. -/
theorem test_memory_canonical : Memory.write [(5, 1), (7, 2)] 5 0 = [(7, 2)] := by decide

/-! ## Video -/

/-- V6: i = 33, b = 3 is pixel (1, 244). -/
theorem test_pixel_v6 : pixelAt Config.standard [(33, 0x08)] 1 244 = 0xFF := by decide
/-- V10: i = 7167, b = 0 is pixel (223, 7), and its neighbour above is dark. -/
theorem test_pixel_v10 :
    pixelAt Config.standard [(7167, 0x01)] 223 7 = 0xFF ∧ pixelAt Config.standard [(7167, 0x01)] 223 6 = 0x00 := by decide
/-- V7: i = 100, b = 5. -/
theorem test_map_v7 : pixelX Config.standard 100 = 3 ∧ pixelY Config.standard 100 5 = 218 := by decide
/-- V7 in the buffer, pitch 224. -/
theorem test_index_v7 : cellIndex 224 3 218 = 48835 := by decide
/-- The first eight steps of the walker put V1's and V2's bits of byte 0x81 at the bottom of column 0. -/
theorem test_walker_first_byte :
    (Walker.run Config.standard [(0, 0x81)] 1 8 (walkerStart (List.replicate 256 0x77))).fb.drop 247 =
      [0x77, 0xFF, 0x00, 0x00, 0x00, 0x00, 0x00, 0x00, 0xFF] := by decide
/-- V17. -/
theorem test_getframe_narrow_pitch : refusalOf (exec (.getframe 223 []) State.reset) = some .badFrameBuffer := by decide
/-- V18: one byte short of the 57344 that pitch 224 needs. -/
theorem test_getframe_short_buffer (fb : List Byte) (h : fb.length = 57343) :
    refusalOf (exec (.getframe 224 fb) State.reset) = some .badFrameBuffer := by
  have hb : frameBufferOk 224 fb = false := by
    rw [frameBufferOk, h]
    decide
  simp [exec, execGetframe, unlessTerminated, State.reset, refusalOf, hb]

/-! ## Faults, reset, step -/

/-- PD9: a terminated block has no step. -/
theorem test_terminated_has_no_step : exec .inShres terminated = .fault (.terminated (.unmappedPort .read 4)) := rfl
/-- RESET of a run in progress (R258 d). -/
theorem test_second_reset : refusalOf (exec .reset { State.reset with runStarted := true }) = some .secondReset := by
  decide
/-- RESET of a terminated block starts a new run (R259). -/
theorem test_new_run : fieldOf State.fault (exec .reset terminated) = some none := by decide
/-- P5, second line, through a step. -/
theorem test_step_p5 :
    fieldOf State.fault (step (State.reset.withFetchWord 24 0x00400)) = some (some (.unmappedPort .read 4)) := by decide
/-- An operation taken leaves the inbox. -/
theorem test_step_takes_the_word : fieldOf State.inbox (step (State.reset.withFetchWord 24 0x104FF)) = some [] := by
  decide
theorem test_step_invalid_word : refusalOf (step (State.reset.withFetchWord 24 0xB0000)) = some (.invalidWord 0xB0000) := by
  decide
/-- The consumer may not issue OUT (R14). -/
theorem test_step_wrong_agent :
    refusalOf (step { State.reset with inbox := [{ agent := .consumer, head := 0x10201 }] }) =
      some (.wrongAgent .consumer) := by decide
/-- The lock held by the consumer: the end-of-screen TICK waits and stays issued. -/
theorem test_tick_waits :
    fieldOf (fun t => (t.result, t.inbox.length)) (step { atVBlank with
      lock := .consumer
      inbox := [{ agent := .cpuSide, head := 0x20000, operands := { time := 9 } }] }) = some (.waiting, 1) := by decide

/-! ## The fine-grained form -/

/-- While the consumer copies, the CPU side's end-of-screen TICK makes its tests and writes and then waits (R170). -/
theorem test_move_waits :
    (({ block := { atVBlank with lock := .consumer }, cpu := .idle, consumer := .copyOut 224 [] [] 0 } : Contexts).move
      (.cpuIssue (.tick 9))).map (fun c => (c.block.lastTime, c.block.phase, c.cpu, c.move .cpuAdvance)) =
    some (9, .awaitingMid, .acquiring, none) := by decide
/-- One byte copied in. -/
theorem test_move_copies_a_byte :
    (({ block := { atVBlank with lock := .producer }, cpu := .copyIn 0, consumer := .idle } : Contexts).move
      .cpuAdvance).map (fun c => (c.block.snap, c.cpu)) = some ([(0, 0xAA)], .copyIn 1) := by decide

/-! ## Witnesses: for each statement with hypotheses, what meets them -/

theorem test_witness_running : State.reset.fault = none := rfl
/-- InputPortReadsReturnADraw: the three members of the default INPUT_PORTS. -/
theorem test_witness_input_ports :
    State.reset.cfg.inputPorts[0]? = some 0 ∧ State.reset.cfg.inputPorts[1]? = some 1 ∧
    State.reset.cfg.inputPorts[2]? = some 2 := by decide

/-- InvalidWordsAreTheReservedOnes, second clause: an invalid word and a valid one at the boundary. -/
theorem test_witness_invalid_words :
    Config.standard.portWidth = 8 ∧ decode Config.standard 0x9FFFF {} = .error (.operandBits 0xFFFF) ∧
    decode Config.standard 0x1FFFF {} = .ok (.outUnmapped 0xFF 0xFF) := by decide

theorem test_witness_production : production.fault = none ∧ production.cfg.strictPorts = false := by decide
theorem test_witness_strict : State.reset.fault = none ∧ State.reset.cfg.strictPorts = true := by decide

/-- StoresStayCanonical, InterruptsAlternate, NoInterruptAfterQuit: a state with a MEMWR issued. -/
theorem test_witness_invariants_and_step :
    State.storesOk { State.reset with inbox := [requestOf Config.standard .cpuSide (.memwr 65535 1)] } = true ∧
    State.cadenceOk { State.reset with inbox := [requestOf Config.standard .cpuSide (.memwr 65535 1)] } = true ∧
    State.quitOk { State.reset with inbox := [requestOf Config.standard .cpuSide (.memwr 65535 1)] } = true ∧
    fieldOf State.mem (step { State.reset with
      inbox := [requestOf Config.standard .cpuSide (.memwr 65535 1)] }) = some [(65535, 1)] := by decide

/-- StepTakesTheOldestOperation: an unmapped write, the row with a well-formedness check. -/
theorem test_witness_step_takes :
    decodeRequest Config.standard { agent := .cpuSide, head := 0x10001 } = .ok (.outUnmapped 0 1) ∧
    Instr.wf Config.standard (.outUnmapped 0 1) = true ∧ admits Config.standard .cpuSide (.outUnmapped 0 1) = true := by
  decide

theorem test_witness_nothing_issued : State.reset.inbox = [] := rfl

/-- StepRefusesInvalidWordsAndWrongAgents, both clauses. -/
theorem test_witness_refusals :
    decodeRequest Config.standard { agent := .cpuSide, head := 0x2FFFF } = .error (.operandBits 0xFFFF) ∧
    decodeRequest Config.standard { agent := .cpuSide, head := 0x80000 } = .ok .setquit ∧
    Config.standard.enforceAgents = true ∧ agentMay .cpuSide .setquit = false := by decide

/-- StepRefusesInvalidWordsAndWrongAgents on a terminated block, both clauses (log entry 17: the refusals come first). -/
theorem test_witness_refusals_terminated :
    terminated.fault = some (.unmappedPort .read 4) ∧
    refusalOf (step { terminated with inbox := [{ agent := .cpuSide, head := 0x2FFFF }] }) =
      some (.invalidWord 0x2FFFF) ∧
    refusalOf (step { terminated with inbox := [{ agent := .cpuSide, head := 0x80000 }] }) =
      some (.wrongAgent .cpuSide) := by decide

/-- R14: the conservative model takes every operation from every agent. -/
theorem test_conservative_admits : admits { enforceAgents := false } .cpuSide .setquit = true := by decide

/-- DecodeOfEncodeIsTheOperation, at the row with a check, under parameters other than the defaults. -/
theorem test_witness_decode_of_encode :
    Config.wf { pWdog := 255 } = true ∧ Instr.wf { pWdog := 255 } (.outUnmapped 6 0xFF) = true := by decide

/-- EncodeOfDecodeIsTheWord: a word with an ignored data field. -/
theorem test_witness_encode_of_decode : decode Config.standard 0x003FF {} = .ok .inShres := by decide

/-- SoundLanesAreIndependent: two writes and two states that agree on bit 7 only of the port's bytes, and the last
clauses. -/
theorem test_witness_lanes :
    (0xFF : Byte).getLsbD 7 = (0x80 : Byte).getLsbD 7 ∧
    State.fault { State.reset with prevSnd1 := 0x7F, prevSnd2 := 0x7F } = none ∧ State.reset.fault = none ∧
    (0x7F : Byte).getLsbD 7 = State.reset.prevSnd1.getLsbD 7 ∧ (0x7F : Byte).getLsbD 7 = State.reset.prevSnd2.getLsbD 7 ∧
    fieldOf State.prevSnd2 (exec (.outSnd1 0xFF) State.reset) = some 0 ∧
    fieldOf State.prevSnd1 (exec (.outSnd2 0xFF) State.reset) = some 0 := by decide

theorem test_witness_tick_quit :
    State.fault { State.reset with quit := true } = none ∧ State.quit { State.reset with quit := true } = true := by decide

/-- TickWithUnchangedTimeDoesNothing, both clauses. -/
theorem test_witness_tick_unchanged :
    State.reset.fault = none ∧ State.reset.quit = false ∧ (0 : Nat) = State.reset.lastTime ∧
    (1 : Nat) ≠ State.reset.lastTime ∧ resultOf (exec (.tick 1) State.reset) = some (.tick .mid) := by decide

/-- TickReportsMid and FreshCadence (with second time 2). -/
theorem test_witness_tick_mid :
    State.reset.fault = none ∧ State.reset.quit = false ∧ (1 : Nat) ≠ State.reset.lastTime ∧
    State.reset.phase = .awaitingMid ∧ State.reset.lock = .free ∧ (2 : Nat) ≠ 1 := by decide

/-- TickReportsVBlankAndTakesTheSnapshot, both clauses. -/
theorem test_witness_tick_vblank :
    atVBlank.fault = none ∧ atVBlank.quit = false ∧ (1 : Nat) ≠ atVBlank.lastTime ∧
    atVBlank.phase = .awaitingVBlank ∧ atVBlank.lock = .free ∧
    State.lock { atVBlank with lock := .consumer } ≠ .free := by decide

theorem test_witness_phase_changes :
    (.tick 1 : Instr) ≠ .reset ∧ fieldOf State.phase (exec (.tick 1) State.reset) = some .awaitingVBlank ∧
    State.reset.phase = .awaitingMid := by decide

theorem test_witness_no_cadence : (∀ t, (.setquit : Instr) ≠ .tick t) ∧ (.setquit : Instr) ≠ .reset := by simp

/-- MemrdReturnsTheByteOrFaults and MemwrStoresTheByteOrFaults at both sides of the boundary. -/
theorem test_witness_memory_range :
    (65535 : Nat) < 65536 ∧ (65536 : Nat) ≤ 65536 ∧ Memory.wf 65536 State.reset.mem = true := by decide

/-- LoadCopiesTheBufferOrFaults at both sides of the boundary. -/
theorem test_witness_load_range :
    65535 + ([0x01] : List Byte).length ≤ 65536 ∧ 65536 < 65535 + ([0x01, 0x02] : List Byte).length := by decide

/-- MemoryOperationsArePassive, both clauses. -/
theorem test_witness_passive :
    isMemoryOperation (.memwr 0 1) = true ∧ resultOf (exec (.memwr 0 1) State.reset) = some .done ∧
    isPortOperation (.outShdata 1) = true ∧ resultOf (exec (.outShdata 1) State.reset) = some (.triggers 0) := by decide

/-- GetframeDrawsTheSnapshot, the three clauses: free lock, held lock, bad buffer. The first two conjuncts also meet the
hypotheses of the statements about `decompress` and the walker. -/
theorem test_witness_getframe :
    224 ≤ 224 ∧ 255 * 224 + 224 ≤ blankFrame.length ∧ State.reset.lock = .free ∧
    State.lock { State.reset with lock := .producer } ≠ .free ∧ 223 < 224 ∧
    (List.replicate 57343 (0 : Byte)).length < 255 * 224 + 224 :=
  ⟨by decide, by rw [blankFrame, List.length_replicate], rfl, by decide, by decide,
    by rw [List.length_replicate]; decide⟩

/-- DecompressPlacesEveryBit, PixelMapsAreInverse, OneBitLightsOnePixel: the last bit and the last pixel. -/
theorem test_witness_last_bit : 7167 < 7168 ∧ 7 < 8 ∧ 223 < 224 ∧ 255 < 256 ∧ 57344 ≤ 57344 := by decide

/-- DecompressKeepsOtherCells, both clauses: a padding cell of pitch 256 and the first cell past the picture. -/
theorem test_witness_other_cells : 224 ≤ 255 % 256 ∧ 255 * 256 + 224 ≤ 65504 := by decide

/-- FaultEntryIsPreciseAndTerminal, both clauses. -/
theorem test_witness_fault_entry :
    (.memrd 65536 : Instr) ≠ .reset ∧
    fieldOf State.fault (exec (.memrd 65536) State.reset) = some (some (.memOutOfRange 65536)) ∧
    State.reset.fault = none ∧ terminated.fault = some (.unmappedPort .read 4) := by decide

/-- OnlyTheListedViolations: one operation that raises each violation. -/
theorem test_witness_violations :
    fieldOf State.fault (exec (.memwr 65536 1) State.reset) = some (some (.memOutOfRange 65536)) ∧
    fieldOf State.fault (exec (.load 65536 [1]) State.reset) = some (some (.loadOverflow 65536 1)) ∧
    fieldOf State.fault (exec (.outUnmapped 7 1) State.reset) = some (some (.unmappedPort .write 7)) := by decide

/-- OnlyTheListedStops, the three clauses. -/
theorem test_witness_stops :
    exec .setquit terminated = .fault (.terminated (.unmappedPort .read 4)) ∧
    refusalOf (exec (.getframe 0 []) State.reset) = some .badFrameBuffer ∧
    resultOf (exec (.tick 1) { atVBlank with lock := .producer }) = some .waiting :=
  ⟨rfl, by decide, by decide⟩

theorem test_witness_writers :
    resultOf (exec (.outShamt 1) State.reset) = some (.triggers 0) ∧ Field.mem ∉ writtenBy (.outShamt 1) := by decide

theorem test_witness_not_getframe : ∀ pitch fb, (.snapshot : Instr) ≠ .getframe pitch fb := by simp

theorem test_witness_trace :
    (.outSnd1 1 : Instr) ≠ .reset ∧
    fieldOf State.trace (exec (.outSnd1 1) State.reset) = some [.trig .first 1] := by decide

theorem test_witness_quit_stays :
    (.memrd 0 : Instr) ≠ .reset ∧ resultOf (exec (.memrd 0) { State.reset with quit := true }) = some (.byte 0) ∧
    State.quit { State.reset with quit := true } = true := by decide

/-- QuitAndFaultStay, the second clause: a step of a terminated block with nothing issued, and a RESET issued to one. -/
theorem test_witness_fault_stays :
    step terminated = .next terminated ∧ terminated.fault = some (.unmappedPort .read 4) ∧
    decodeRequest Config.standard { agent := .host, head := 0x90000 } = .ok .reset ∧
    fieldOf State.fault (step { terminated with inbox := [{ agent := .host, head := 0x90000 }] }) = some none :=
  ⟨rfl, rfl, by decide, by decide⟩

/-- ResetStartsARunOnce, both clauses (and the second way into the first). -/
theorem test_witness_reset :
    State.reset.runStarted = false ∧ terminated.fault ≠ none ∧
    State.runStarted { State.reset with runStarted := true } = true ∧
    State.fault { State.reset with runStarted := true } = none := by decide

/-- MovesKeepTheLockDiscipline, SourcesStandStillDuringACopy: both contexts idle, and a copy under way on each side. -/
theorem test_witness_moves_cpu :
    ({ block := { State.reset with lock := .producer }, cpu := .copyIn 0, consumer := .idle } : Contexts).ok ∧
    (({ block := { State.reset with lock := .producer }, cpu := .copyIn 0, consumer := .idle } : Contexts).move
      .cpuAdvance).isSome = true :=
  ⟨⟨rfl, ⟨fun k h => by cases h; simp, fun _ _ _ _ h => by cases h⟩, rfl, rfl,
    fun _ _ _ _ h => by cases h⟩, by decide⟩

theorem test_witness_moves_consumer :
    ({ block := { State.reset with lock := .consumer }, cpu := .idle, consumer := .copyOut 224 [] [] 0 } : Contexts).ok ∧
    (({ block := { State.reset with lock := .consumer }, cpu := .idle, consumer := .copyOut 224 [] [] 0 } : Contexts).move
      .consumerAdvance).isSome = true :=
  ⟨⟨rfl, ⟨by simp, fun _ _ _ _ h => by cases h; simp⟩, rfl, rfl, fun _ _ _ _ h => by cases h; rfl⟩, by decide⟩

/-- TickMoveByMoveIsTheAtomicTick. -/
theorem test_witness_tick_moves :
    atVBlank.storesOk = true ∧ tickArm 1 atVBlank = .endOfScreen ∧
    resultOf (exec (.tick 1) atVBlank) = some (.tick .vblank) := by decide

/-- GetframeMoveByMoveIsTheAtomicGetframe. -/
theorem test_witness_getframe_moves :
    State.reset.storesOk = true ∧ ∃ u, exec (.getframe 224 blankFrame) State.reset = .next u :=
  ⟨by decide, _, by
    have h : frameBufferOk 224 blankFrame = true := by
      rw [frameBufferOk, blankFrame, List.length_replicate]
      decide
    show execGetframe 224 blankFrame State.reset = _
    rw [execGetframe, if_pos h]
    rfl⟩

/-- TickInProgressOutlastsSetquit: a TICK that has made its tests, waiting at a free lock. -/
theorem test_witness_tick_in_progress :
    ({ block := atVBlank.beginEndOfScreen 9, cpu := .acquiring, consumer := .idle } : Contexts).ok ∧
    (atVBlank.beginEndOfScreen 9).fault = none :=
  ⟨⟨rfl, ⟨fun _ h => (by cases h), fun _ _ _ _ h => by cases h⟩, rfl, rfl, fun _ _ _ _ h => by cases h⟩, rfl⟩

end Sys2Proof.Tests
end

/-!
The head words of the CMD operations (30_encoding.md R82, R97 c, R101).
-/
namespace Sys2Proof.Laws

/-- A CMD head word, its port and data fields 0, is decoded by its selector alone, under any parameters. -/
theorem decode_headOf_command (c : Config) {op : Nat} (hlow : 0x2 ≤ op) (hhigh : op < 0xA) (o : Operands) :
    decode c (headOf c op 0 0) o = decodeCommand c op o := by
  have hbits : headLow c (headOf c op 0 0) = 0 := by simp [headLow_headOf]
  rw [decode, headOp_headOf, if_neg (by omega), if_neg (by omega), if_neg (by omega), if_neg (not_not.2 hbits)]

end Sys2Proof.Laws

/-!
The memory operations in a running block, one equation per arm (40_memory_ops.md R111 to R113), and the statements about
them.
-/
namespace Sys2Proof.Machine

open Sys2Proof.Laws

section Running

variable {s : State} (hrun : s.fault = none) {a : Nat}
include hrun

theorem exec_memrd_in_range (ha : a < memSize) : exec (.memrd a) s = .next (s.respond (.byte (s.mem.read a))) :=
  (unlessTerminated_running hrun _).trans (if_neg (Nat.not_le.2 ha))

theorem exec_memrd_out_of_range (ha : memSize ≤ a) : exec (.memrd a) s = raise (.memOutOfRange a) s :=
  (unlessTerminated_running hrun _).trans (if_pos ha)

theorem exec_memwr_in_range (v : Byte) (ha : a < memSize) :
    exec (.memwr a v) s = .next ({ s with mem := s.mem.write a v }.respond .done) :=
  (unlessTerminated_running hrun _).trans (if_neg (Nat.not_le.2 ha))

theorem exec_memwr_out_of_range (v : Byte) (ha : memSize ≤ a) :
    exec (.memwr a v) s = raise (.memOutOfRange a) s :=
  (unlessTerminated_running hrun _).trans (if_pos ha)

theorem exec_snapshot : exec .snapshot s = .next (s.respond (.copy (s.mem.bytes s.cfg.vramBase vramLen))) :=
  unlessTerminated_running hrun _

end Running

/-- Settles O34: the write keeps the canonical form, a read at `a` gives `v`, and a read elsewhere does not see it. -/
theorem memwrStoresTheByteOrFaults : Obligations.MemwrStoresTheByteOrFaults := by
  intro a v
  refine ⟨decode_headOf_command Config.standard (op := 0x4) (by decide) (by decide) _,
    fun s hrun => ⟨fun ha => ?_, fun ha => ?_⟩⟩
  · exact ⟨s.mem.write a v, exec_memwr_in_range hrun v ha,
      fun hwf => ⟨Memory.wf_write hwf ha v, Memory.read_write_self hwf a v⟩,
      fun b hb => Memory.read_write_of_ne v hb⟩
  · rw [exec_memwr_out_of_range hrun v ha, raise_eq]

/-- Settles O33, by the two sides of the range check. -/
theorem memrdReturnsTheByteOrFaults : Obligations.MemrdReturnsTheByteOrFaults := by
  intro a
  refine ⟨decode_headOf_command Config.standard (op := 0x3) (by decide) (by decide) _,
    fun s hrun => ⟨fun ha => ?_, fun ha => ?_⟩⟩
  · exact exec_memrd_in_range hrun ha
  · rw [exec_memrd_out_of_range hrun ha, raise_eq]

/-- Settles O36: the copy has the window's length and its bytes in the window's order. -/
theorem snapshotReturnsTheWindow : Obligations.SnapshotReturnsTheWindow := by
  refine ⟨decode_headOf_command Config.standard (op := 0x6) (by decide) (by decide) _, fun s hrun => ?_⟩
  refine ⟨s.mem.bytes s.cfg.vramBase vramLen, exec_snapshot hrun, Memory.length_bytes .., fun i hi => ?_⟩
  have hlen : i < (s.mem.bytes s.cfg.vramBase vramLen).length := by rwa [Memory.length_bytes]
  rw [List.getElem?_eq_getElem hlen, Memory.getElem_bytes]

end Sys2Proof.Machine

/-!
The head words of the port operations (30_encoding.md R81, R101).
-/
namespace Sys2Proof.Laws

/-- An IN head word is dispatched by its port field, whatever its data field holds. -/
theorem decode_headOf_in (c : Config) (p : Nat) (d : Byte) (o : Operands) :
    decode c (headOf c 0x0 p d) o = .ok (dispatchIn c (p % 2 ^ c.portWidth)) := by
  rw [decode, headOp_headOf, if_pos rfl, headPort_headOf]

/-- An OUT head word is dispatched by its port field, with its data field as the byte written. -/
theorem decode_headOf_out (c : Config) (p : Nat) (v : Byte) (o : Operands) :
    decode c (headOf c 0x1 p v) o = .ok (dispatchOut c (p % 2 ^ c.portWidth) v) := by
  rw [decode, headOp_headOf, if_neg (by decide), if_pos rfl, headPort_headOf, headData_headOf]

end Sys2Proof.Laws

/-!
The shift register (41_shift_register.md R130 to R132, R136): the accumulator in natural numbers, the three operations in a
running block, and the statements about them.
-/
namespace Sys2Proof.Machine

open Sys2Proof.Laws

theorem pushByte_toNat (d : Accumulator) (v : Byte) : (pushByte d v).toNat = v.toNat * 256 + d.toNat / 256 := by
  have hhigh : (d.extractLsb' 8 8).toNat = d.toNat / 256 := by
    rw [BitVec.extractLsb'_toNat, Nat.shiftRight_eq_div_pow]
    exact Nat.mod_eq_of_lt (Nat.div_lt_of_lt_mul d.isLt)
  rw [pushByte_eq_append, BitVec.toNat_append, ← Nat.shiftLeft_add_eq_or_of_lt (BitVec.isLt _), hhigh,
    Nat.shiftLeft_eq]

/-- Two pushes replace the whole accumulator: what it held before is gone. -/
theorem pushByte_pushByte_toNat (d : Accumulator) (v₁ v₂ : Byte) :
    (pushByte (pushByte d v₁) v₂).toNat = v₂.toNat * 256 + v₁.toNat := by
  have hold : d.toNat / 256 < 256 := Nat.div_lt_of_lt_mul d.isLt
  rw [pushByte_toNat, pushByte_toNat]
  omega

theorem execAll_cons_of_next {i : Instr} {is : List Instr} {s t : State} (h : exec i s = .next t) :
    execAll (i :: is) s = execAll is t := by
  rw [execAll, h]

theorem execAll_append_of_next {is js : List Instr} {s t : State} (h : execAll is s = .next t) :
    execAll (is ++ js) s = execAll js t := by
  induction is generalizing s with
  | nil =>
    cases h
    rfl
  | cons i is ih =>
    cases hi : exec i s with
    | next u =>
      rw [execAll_cons_of_next hi] at h
      rw [List.cons_append, execAll_cons_of_next hi, ih h]
    | fault f => simp [execAll, hi] at h
    | refused r => simp [execAll, hi] at h

section ShiftOperations

variable {s : State} (hrun : s.fault = none)
include hrun

theorem exec_outShamt (v : Byte) :
    exec (.outShamt v) s = .next ({ s with shiftAmount := amountOf v }.respond (.triggers 0)) :=
  unlessTerminated_running hrun _

theorem exec_outShdata (v : Byte) :
    exec (.outShdata v) s = .next ({ s with shiftData := pushByte s.shiftData v }.respond (.triggers 0)) :=
  unlessTerminated_running hrun _

theorem exec_inShres : exec .inShres s = .next (s.respond (.byte (shiftResult s.shiftData s.shiftAmount))) :=
  unlessTerminated_running hrun _

/-- An amount write and two data writes leave the same state, wherever the amount write stands
(41_shift_register.md R139). -/
theorem execAll_shiftWrites {n d₁ d₂ : Byte} {is : List Instr}
    (his : is = [.outShamt n, .outShdata d₁, .outShdata d₂] ∨ is = [.outShdata d₁, .outShamt n, .outShdata d₂] ∨
      is = [.outShdata d₁, .outShdata d₂, .outShamt n]) :
    execAll is s = .next ({ s with
      shiftAmount := amountOf n, shiftData := pushByte (pushByte s.shiftData d₁) d₂ }.respond (.triggers 0)) := by
  rcases his with rfl | rfl | rfl <;>
    simp only [execAll, exec_outShamt, exec_outShdata, State.respond, hrun]

end ShiftOperations

/-- Settles O53: the three orders leave one state, in which the accumulator is the two bytes written and the amount the
written one's low bits; the read then returns the window of these. -/
theorem twoWritesThenReadGiveTheWindow : Obligations.TwoWritesThenReadGiveTheWindow := by
  intro s n d₁ d₂ is hrun his
  refine ⟨_, shiftResult (pushByte (pushByte s.shiftData d₁) d₂) (amountOf n),
    (execAll_append_of_next (execAll_shiftWrites hrun his)).trans (execAll_cons_of_next (exec_inShres hrun)), rfl, ?_⟩
  rw [shiftResult_toNat, pushByte_pushByte_toNat, amountOf_toNat]

/-- Settles O15: the read writes no field of S, and its byte is the window in natural numbers. -/
theorem shiftResultReadIsTheWindow : Obligations.ShiftResultReadIsTheWindow :=
  ⟨decode_headOf_in Config.standard 3 0 {},
    fun s hrun => ⟨_, exec_inShres hrun, shiftResult_toNat s.shiftData s.shiftAmount⟩⟩

/-- Settles O16: the data field is the byte written, of which the amount keeps the remainder by 8. -/
theorem shiftAmountWriteKeepsThreeBits : Obligations.ShiftAmountWriteKeepsThreeBits := fun v =>
  ⟨decode_headOf_out Config.standard 2 v {},
    fun _ hrun => ⟨_, amountOf_toNat v, exec_outShamt hrun v⟩⟩

/-- Settles O17: the data field is the byte pushed, and the push is the concatenation of it and the old high byte. -/
theorem shiftDataWritePushesTheByte : Obligations.ShiftDataWritePushesTheByte := fun v =>
  ⟨decode_headOf_out Config.standard 4 v {},
    fun s hrun => ⟨_, pushByte_toNat s.shiftData v, exec_outShdata hrun v⟩⟩

end Sys2Proof.Machine

/-!
The sound trigger unit (42_sound_trigger.md R150 to R155): the trigger masks and the channels lane by lane, the two writes
in a running block, and the statements about them.
-/
namespace Sys2Proof.Machine

open Sys2Proof.Laws

/-! ## Lanes -/

theorem heldBit_getLsbD (old v : Byte) (i : Nat) :
    (heldBit old v).getLsbD i = (decide (i = 0) && (v.getLsbD i || old.getLsbD i)) := by
  have hone : (0x01 : Byte).getLsbD i = decide (i = 0) := by simp [BitVec.getLsbD_one]
  rw [heldBit, BitVec.getLsbD_and, BitVec.getLsbD_or, hone, Bool.and_comm]

theorem triggerMask_second_getLsbD (old v : Byte) (i : Nat) :
    (triggerMask .second old v).getLsbD i = (v.getLsbD i && !old.getLsbD i) := by
  rw [triggerMask_second, risingBits_getLsbD]

/-- The first port's mask: the level-or rule on bit 0, the edge rule on every other bit. -/
theorem triggerMask_first_getLsbD (old v : Byte) (i : Nat) :
    (triggerMask .first old v).getLsbD i =
      if i = 0 then v.getLsbD i || old.getLsbD i else v.getLsbD i && !old.getLsbD i := by
  have hrest : (0xFE : Byte).getLsbD i = (decide (i < 8) && !decide (i = 0)) := by
    rw [show (0xFE : Byte) = ~~~0x01 by decide, BitVec.getLsbD_not]
    simp [BitVec.getLsbD_one]
  rw [triggerMask, BitVec.getLsbD_or, BitVec.getLsbD_and, risingBits_getLsbD, heldBit_getLsbD, hrest]
  by_cases h8 : i < 8
  · by_cases h0 : i = 0 <;> simp [h0, h8]
  · simp [show i ≠ 0 by omega, h8, BitVec.getLsbD_of_ge v i (by omega)]

/-- A bit of the mask sees only its own bit of the two bytes. -/
theorem triggerMask_getLsbD_congr (p : SoundPort) {old old' v v' : Byte} {i : Nat}
    (hv : v.getLsbD i = v'.getLsbD i) (hold : old.getLsbD i = old'.getLsbD i) :
    (triggerMask p old v).getLsbD i = (triggerMask p old' v').getLsbD i := by
  cases p
  case first => rw [triggerMask_first_getLsbD, triggerMask_first_getLsbD, hv, hold]
  case second => rw [triggerMask_second_getLsbD, triggerMask_second_getLsbD, hv, hold]

/-- After the byte 0 a write's mask is the byte written. -/
theorem triggerMask_zero (p : SoundPort) (T : Byte) : triggerMask p 0 T = T := by
  apply BitVec.eq_of_getLsbD_eq
  intro i _
  cases p
  case first => simp [triggerMask_first_getLsbD]
  case second => simp [triggerMask_second_getLsbD]

/-! ## Channels -/

theorem channelsOf_first_getLsbD (T : Byte) (c : Nat) : (channelsOf .first T).getLsbD c = T.getLsbD c := by
  rw [channelsOf, BitVec.getLsbD_setWidth, Bool.and_eq_right_iff_imp, decide_eq_true_iff]
  exact fun hbit => Nat.lt_trans (BitVec.lt_of_getLsbD hbit) (by decide)

theorem channelsOf_second_getLsbD (T : Byte) (c : Nat) :
    (channelsOf .second T).getLsbD c = (decide (8 ≤ c) && T.getLsbD (c - 8)) := by
  rw [show channelsOf .second T = channelsOf .first T <<< 8 from rfl, BitVec.getLsbD_shiftLeft,
    channelsOf_first_getLsbD, ← decide_not, decide_eq_decide.2 Nat.not_lt]
  by_cases h16 : c < 16
  · rw [decide_eq_true h16, Bool.true_and]
  · simp [h16, BitVec.getLsbD_of_ge T (c - 8) (by omega)]

theorem triggerSet_first_getLsbD (old v : Byte) (c : Nat) :
    (triggerSet .first old v).getLsbD c = (triggerMask .first old v).getLsbD c := by
  rw [triggerSet, channelsOf_first_getLsbD]

theorem triggerSet_second_getLsbD (old v : Byte) (c : Nat) :
    (triggerSet .second old v).getLsbD c = (decide (8 ≤ c) && (triggerMask .second old v).getLsbD (c - 8)) := by
  rw [triggerSet, channelsOf_second_getLsbD]

/-! ## The two writes in a running block -/

section SoundWrites

variable {s : State} (hrun : s.fault = none) (v : Byte)
include hrun

theorem exec_outSnd1 :
    exec (.outSnd1 v) s = .next (({ s with prevSnd1 := v }.emit (.trig .first (triggerSet .first s.prevSnd1 v))).respond
      (.triggers (triggerSet .first s.prevSnd1 v))) :=
  unlessTerminated_running hrun _

theorem exec_outSnd2 :
    exec (.outSnd2 v) s = .next (({ s with prevSnd2 := v }.emit (.trig .second (triggerSet .second s.prevSnd2 v))).respond
      (.triggers (triggerSet .second s.prevSnd2 v))) :=
  unlessTerminated_running hrun _

end SoundWrites

/-- Settles O20. A write's set is its mask moved to the port's channels, and each bit of the mask sees only its own bit of
the two bytes; after the byte 0 the mask is the byte written, so a write of `T` fires the subset `T`. -/
theorem soundLanesAreIndependent : Obligations.SoundLanesAreIndependent := by
  refine ⟨fun v v' s s' i hrun hrun' hv => ⟨fun hold => ?_, fun hold => ?_⟩, fun s T hrun => ?_,
    fun v s t h => ?_, fun v s t h => ?_⟩
  · refine ⟨_, _, _, _, exec_outSnd1 hrun v, exec_outSnd1 hrun' v', rfl, rfl, ?_⟩
    rw [triggerSet_first_getLsbD, triggerSet_first_getLsbD, triggerMask_getLsbD_congr .first hv hold]
  · refine ⟨_, _, _, _, exec_outSnd2 hrun v, exec_outSnd2 hrun' v', rfl, rfl, ?_⟩
    rw [triggerSet_second_getLsbD, triggerSet_second_getLsbD, Nat.add_sub_cancel_left,
      triggerMask_getLsbD_congr .second hv hold]
  · have hset (p : SoundPort) : triggerSet p 0 T = channelsOf p T := by rw [triggerSet, triggerMask_zero]
    exact ⟨0, T, _, _, exec_outSnd1 (s := { s with prevSnd1 := 0 }) hrun T, congrArg Result.triggers (hset .first),
      exec_outSnd2 (s := { s with prevSnd2 := 0 }) hrun T, congrArg Result.triggers (hset .second)⟩
  · obtain ⟨-, rfl⟩ := exec_next h
    rfl
  · obtain ⟨-, rfl⟩ := exec_next h
    rfl

/-- Settles O18: channel `c` is bit `c` of the mask, which is 0 from bit 8 up. -/
theorem firstSoundPortWriteTriggers : Obligations.FirstSoundPortWriteTriggers := by
  refine fun v => ⟨decode_headOf_out Config.standard 3 v {},
    fun s hrun => ⟨triggerSet .first s.prevSnd1 v, fun c => ?_, exec_outSnd1 hrun v⟩⟩
  by_cases h8 : c < 8
  · rw [triggerSet_first_getLsbD, triggerMask_first_getLsbD, decide_eq_true h8, Bool.true_and]
    split
    · next h0 => rw [h0]
    · rfl
  · rw [triggerSet_first_getLsbD, BitVec.getLsbD_of_ge _ c (by omega), decide_eq_false h8, Bool.false_and]

/-- Settles O19: channel `c` is bit `c - 8` of the mask, which follows the edge rule on every bit. -/
theorem secondSoundPortWriteTriggers : Obligations.SecondSoundPortWriteTriggers := by
  refine fun v => ⟨decode_headOf_out Config.standard 5 v {},
    fun s hrun => ⟨triggerSet .second s.prevSnd2 v, fun c => ?_, exec_outSnd2 hrun v⟩⟩
  rw [triggerSet_second_getLsbD, triggerMask_second_getLsbD]

end Sys2Proof.Machine

/-!
The cadence driver (43_interrupt_cadence.md R170 to R178, R182): the arm a TICK takes, one equation per arm in a running
block, what the other operations do with the cadence fields, and the statements about them.
-/
namespace Sys2Proof.Machine

open Sys2Proof.Laws

/-! ## The tests of TICK -/

section Tests

variable {s : State} {t : Nat}

theorem tickArm_of_quit (hquit : s.quit = true) : tickArm t s = .quit := if_pos hquit

variable (hquit : s.quit = false)
include hquit

theorem tickArm_of_unchanged (ht : t = s.lastTime) : tickArm t s = .unchanged := by
  simp [tickArm, hquit, ht]

theorem tickArm_of_awaitingMid (ht : t ≠ s.lastTime) (hphase : s.phase = .awaitingMid) : tickArm t s = .mid := by
  simp [tickArm, hquit, ht, hphase]

theorem tickArm_of_awaitingVBlank (ht : t ≠ s.lastTime) (hphase : s.phase = .awaitingVBlank) :
    tickArm t s = .endOfScreen := by
  simp [tickArm, hquit, ht, hphase]

end Tests

/-! ## TICK and SETQUIT in a running block -/

section Cadence

variable {s : State} (hrun : s.fault = none)
include hrun

theorem exec_setquit : exec .setquit s = .next ({ s with quit := true }.respond .done) :=
  unlessTerminated_running hrun _

variable {t : Nat}

theorem exec_tick_quit (hquit : s.quit = true) :
    exec (.tick t) s = .next ((s.emit .quitSeen).respond (.tick .quit)) := by
  rw [exec, execTick, unlessTerminated_running hrun, tickArm_of_quit hquit]

theorem exec_tick_unchanged (hquit : s.quit = false) (ht : t = s.lastTime) :
    exec (.tick t) s = .next (s.respond (.tick .noInterrupt)) := by
  rw [exec, execTick, unlessTerminated_running hrun, tickArm_of_unchanged hquit ht]

theorem exec_tick_mid (hquit : s.quit = false) (ht : t ≠ s.lastTime) (hphase : s.phase = .awaitingMid) :
    exec (.tick t) s = .next (s.midArm t) := by
  rw [exec, execTick, unlessTerminated_running hrun, tickArm_of_awaitingMid hquit ht hphase]

theorem exec_tick_endOfScreen (hquit : s.quit = false) (ht : t ≠ s.lastTime) (hphase : s.phase = .awaitingVBlank)
    (hfree : s.lock = .free) :
    exec (.tick t) s = .next (({ s with lock := .producer }.beginEndOfScreen t).copyIn).finishEndOfScreen := by
  rw [exec, execTick, unlessTerminated_running hrun, tickArm_of_awaitingVBlank hquit ht hphase]
  simp only [acquire_free hfree]

/-- After the signal any sequence of ticks completes, and the next one answers Quit (43_interrupt_cadence.md R178). -/
theorem execAll_ticks_of_quit (hquit : s.quit = true) (ts : List Nat) :
    ∃ u, execAll (ts.map .tick) s = .next u ∧ u.fault = none ∧
      ∀ t, ∃ w, exec (.tick t) u = .next w ∧ w.result = .tick .quit := by
  induction ts generalizing s with
  | nil => exact ⟨s, rfl, hrun, fun t => ⟨_, exec_tick_quit hrun hquit, rfl⟩⟩
  | cons t ts ih =>
    rw [List.map_cons, execAll_cons_of_next (exec_tick_quit hrun hquit)]
    exact ih hrun hquit

end Cadence

/-! ## The cadence fields in the other operations -/

/-- `s` with its three cadence fields changed. -/
def State.mapCadence (p : Phase → Phase) (l : Nat → Nat) (q : Bool → Bool) (s : State) : State :=
  { s with phase := p s.phase, lastTime := l s.lastTime, quit := q s.quit }

/-- To change the next state of an operation, change the next state of its body: `fault` alone decides whether it runs. -/
theorem mapNext_unlessTerminated {f : State → State} {s s' : State} {body body' : Answer} (hfault : s'.fault = s.fault)
    (hbody : body' = mapNext f body) : unlessTerminated s' body' = mapNext f (unlessTerminated s body) := by
  rw [unlessTerminated, unlessTerminated, hfault, hbody]
  cases s.fault <;> rfl

theorem mapNext_ite {f : State → State} {c : Prop} [Decidable c] {a a' b b' : Answer} (ha : a' = mapNext f a)
    (hb : b' = mapNext f b) : (if c then a' else b') = mapNext f (if c then a else b) := by
  rw [ha, hb, apply_ite (mapNext f)]

/-- No operation but TICK and RESET reads the cadence fields, and only SETQUIT writes one, so a change of them that keeps a
set signal set may be made before the operation or after it (43_interrupt_cadence.md R177, R178). -/
theorem exec_mapCadence {i : Instr} (htick : ∀ t, i ≠ .tick t) (hreset : i ≠ .reset) (p : Phase → Phase) (l : Nat → Nat)
    {q : Bool → Bool} (hq : q true = true) (s : State) :
    exec i (s.mapCadence p l q) = mapNext (State.mapCadence p l q) (exec i s) := by
  cases i with
  | tick t => exact absurd rfl (htick t)
  | reset => exact absurd rfl hreset
  | setquit =>
    refine mapNext_unlessTerminated rfl ?_
    simp [mapNext, State.mapCadence, State.respond, hq]
  | getframe pitch fb =>
    refine mapNext_unlessTerminated rfl (mapNext_ite ?_ rfl)
    by_cases hfree : s.lock = .free
    · rw [acquire_free hfree, acquire_free (s := s.mapCadence p l q) hfree]
      rfl
    · rw [acquire_held hfree, acquire_held (s := s.mapCadence p l q) hfree]
      rfl
  | inUnmapped | outUnmapped | memrd | memwr | load => exact mapNext_unlessTerminated rfl (mapNext_ite rfl rfl)
  | inInp0 | inInp1 | inInp2 | inInpNext | inShres | inWdog | outShamt | outSnd1 | outShdata | outSnd2 | outWdog |
    snapshot => exact mapNext_unlessTerminated rfl rfl

/-! ## The statements -/

/-- Settles O29: the four ticks take the arms Mid, unchanged, end-of-screen, unchanged in turn, and after the signal every
sequence of ticks ends where the next tick answers Quit. -/
theorem freshCadence : Obligations.FreshCadence := by
  intro s t₁ t₂ hrun hquit hphase hfree ht₁ ht₂
  have hmid := exec_tick_mid hrun hquit ht₁ hphase
  have hsame := exec_tick_unchanged (s := s.midArm t₁) hrun hquit rfl
  obtain ⟨u₂, hvblank, hresult, hsnap, hrun₂, hquit₂, htime⟩ :
      ∃ u₂, exec (.tick t₂) (s.midArm t₁) = .next u₂ ∧ u₂.result = .tick .vblank ∧
        (∀ i, i < 7168 → u₂.snap.read i = s.mem.read (s.cfg.vramBase + i)) ∧
        u₂.fault = none ∧ u₂.quit = false ∧ u₂.lastTime = t₂ :=
    ⟨_, exec_tick_endOfScreen (s := s.midArm t₁) hrun hquit ht₂ rfl hfree, rfl, fun _ => Memory.read_slice,
      hrun, hquit, rfl⟩
  exact ⟨s.midArm t₁, _, u₂, u₂.respond (.tick .noInterrupt), _, hmid, rfl, rfl, hsame, rfl, hvblank, hresult, hsnap,
    exec_tick_unchanged hrun₂ hquit₂ htime.symm, rfl,
    exec_setquit (s := u₂.respond (.tick .noInterrupt)) hrun₂,
    execAll_ticks_of_quit (s := { u₂ with quit := true }.respond .done) hrun₂ rfl⟩

/-- Settles O30: the signal is one of the cadence fields, which only TICK and RESET read. -/
theorem setquitSetsTheSignal : Obligations.SetquitSetsTheSignal := by
  refine ⟨decode_headOf_command Config.standard (op := 0x8) (by decide) (by decide) {}, fun s hrun =>
    ⟨exec_setquit hrun, fun t => ⟨_, exec_tick_quit (s := { s with quit := true }) hrun rfl, rfl, rfl⟩,
      fun i htick hreset => ?_⟩⟩
  exact exec_mapCadence htick hreset id id (q := fun _ => true) rfl s

/-- Settles O26: of the arms a TICK can take, only the unchanged one answers NoInterrupt. -/
theorem tickWithUnchangedTimeDoesNothing : Obligations.TickWithUnchangedTimeDoesNothing := by
  refine fun t s hrun hquit => ⟨exec_tick_unchanged hrun hquit, fun u ht h => ?_⟩
  obtain ⟨-, ⟨hset, -⟩ | ⟨-, hsame, -⟩ | ⟨-, -, -, rfl⟩ | ⟨-, -, -, ⟨-, rfl⟩ | ⟨-, rfl⟩⟩⟩ := exec_next h
  · rw [hquit] at hset
    contradiction
  · exact absurd hsame ht
  · simp
  · simp
  · simp

/-- Settles O27, by the equation of the Mid arm, which does not ask for the lock. -/
theorem tickReportsMid : Obligations.TickReportsMid :=
  fun _ _ hrun hquit ht hphase => exec_tick_mid hrun hquit ht hphase

end Sys2Proof.Machine

/-!
The watchdog port (45_port_dispatch.md R223): its write in a running block, and the statement about it.
-/
namespace Sys2Proof.Machine

open Sys2Proof.Laws

/-- The byte written does not occur in the answer (45_port_dispatch.md R223). -/
theorem exec_outWdog {s : State} (hrun : s.fault = none) (v : Byte) :
    exec (.outWdog v) s = .next (s.respond (.triggers 0)) :=
  unlessTerminated_running hrun _

/-- Settles O22: port 6 dispatches to the watchdog write, and in a running block that write is its response alone. -/
theorem watchdogWriteDoesNothing : Obligations.WatchdogWriteDoesNothing := fun v =>
  ⟨decode_headOf_out Config.standard 6 v {}, fun _ hrun => exec_outWdog hrun v⟩

end Sys2Proof.Machine

/-!
Frames (10_state.md R20, column "written by"): which fields the named updates and the operations leave alone, and the
statements that follow from the columns of the state table.
-/
namespace Sys2Proof.Machine

/-! ## Agreement on a field -/

theorem Field.agree_trans {s t u : State} {f : Field} (hst : f.agree s t) (htu : f.agree t u) : f.agree s u := by
  cases f <;> exact htu.trans hst

theorem Field.agree_refl (s : State) (f : Field) : f.agree s s := by cases f <;> rfl

theorem Field.agree_respond (r : Result) (s : State) (f : Field) : f.agree s (s.respond r) := by cases f <;> rfl

section Updates

variable (s : State) {f : Field}

theorem Field.agree_emit (e : Event) (hf : f ≠ .trace) : f.agree s (s.emit e) := by
  cases f <;> simp [Field.agree] at hf ⊢

theorem Field.agree_record (v : Violation) (hf : f ≠ .fault) : f.agree s (s.record v) := by
  cases f <;> simp [Field.agree] at hf ⊢

theorem Field.agree_useDraw (hf : f ≠ .draws) : f.agree s s.useDraw := by
  cases f <;> simp [Field.agree] at hf ⊢

theorem Field.agree_midArm (t : Nat) (hf : f ∉ [.phase, .lastTime, .trace]) : f.agree s (s.midArm t) := by
  cases f <;> simp [Field.agree] at hf ⊢

theorem Field.agree_startRun (hf : f ∉ writtenBy .reset) : f.agree s s.startRun := by
  cases f <;> simp [writtenBy, Field.agree] at hf ⊢

end Updates

/-- An operation leaves every field it is not listed for as it was. -/
theorem effect_frame {i : Instr} {s t : State} (h : Effect s t i) {f : Field} (hf : f ∉ writtenBy i) : f.agree s t := by
  cases i with
  | inShres | inWdog | outWdog | snapshot =>
    obtain ⟨-, rfl⟩ := h
    exact Field.agree_respond _ s f
  | inInp0 | inInp1 | inInp2 | inInpNext =>
    obtain ⟨-, rfl⟩ := h
    exact Field.agree_trans (Field.agree_useDraw s (by simpa [writtenBy] using hf)) (Field.agree_respond _ _ f)
  | outShamt | outShdata | outSnd1 | outSnd2 | setquit =>
    obtain ⟨-, rfl⟩ := h
    cases f <;> simp [writtenBy, Field.agree] at hf ⊢
  | inUnmapped | outUnmapped | memrd =>
    obtain ⟨-, ⟨-, rfl⟩ | ⟨-, rfl⟩⟩ := h
    · exact Field.agree_trans (Field.agree_record s _ (by simpa [writtenBy] using hf)) (Field.agree_respond _ _ f)
    · exact Field.agree_respond _ s f
  | memwr | load =>
    obtain ⟨-, ⟨-, rfl⟩ | ⟨-, rfl⟩⟩ := h
    · cases f <;> simp [writtenBy, Field.agree] at hf ⊢
    · cases f <;> simp [writtenBy, Field.agree] at hf ⊢
  | tick x =>
    obtain ⟨-, ⟨-, rfl⟩ | ⟨-, -, rfl⟩ | ⟨-, -, -, rfl⟩ | ⟨-, -, -, ⟨hfree, rfl⟩ | ⟨-, rfl⟩⟩⟩ := h
    · cases f <;> simp [writtenBy, Field.agree] at hf ⊢
    · exact Field.agree_respond _ s f
    · exact Field.agree_midArm s x fun hmem => hf (List.mem_cons_of_mem _ hmem)
    · cases f <;> simp [writtenBy, Field.agree, hfree] at hf ⊢
    · exact Field.agree_respond _ s f
  | getframe =>
    obtain ⟨-, -, ⟨hfree, rfl⟩ | ⟨-, rfl⟩⟩ := h
    · cases f <;> simp [writtenBy, Field.agree, hfree] at hf ⊢
    · exact Field.agree_respond _ s f
  | reset =>
    obtain ⟨-, rfl⟩ := h
    exact Field.agree_trans (Field.agree_startRun s hf) (Field.agree_respond _ _ f)

/-- Settles O47, by the frame of each operation. -/
theorem everyFieldHasItsWriters : Obligations.EveryFieldHasItsWriters :=
  fun _ _ _ _ h hf => effect_frame (exec_next h) hf

end Sys2Proof.Machine

/-!
The invariants of the block (10_state.md R45, 43_interrupt_cadence.md R176, R182): what an operation does to the stores, to
the cadence and to the quit signal, and the statements that every step keeps the three invariants.
-/
namespace Sys2Proof.Machine

open Sys2Proof.Laws

/-! ## The writers of a field -/

section Writers

variable {i : Instr}

theorem cfg_notMem_writtenBy : Field.cfg ∉ writtenBy i := by cases i <;> simp [writtenBy]

theorem eq_of_mem_mem_writtenBy (h : Field.mem ∈ writtenBy i) :
    (∃ a v, i = .memwr a v) ∨ (∃ offset buffer, i = .load offset buffer) ∨ i = .reset := by
  cases i <;> simp [writtenBy] at h ⊢

theorem eq_of_lastTime_mem_writtenBy (h : Field.lastTime ∈ writtenBy i) : (∃ x, i = .tick x) ∨ i = .reset := by
  cases i <;> simp [writtenBy] at h ⊢

theorem eq_of_quit_mem_writtenBy (h : Field.quit ∈ writtenBy i) : i = .setquit ∨ i = .reset := by
  cases i <;> simp [writtenBy] at h ⊢

end Writers

section Effects

variable {i : Instr} {s t : State} (h : Effect s t i)
include h

/-- Every operation but RESET asks for a running block. -/
theorem effect_running (hreset : i ≠ .reset) : s.fault = none := by
  cases i with
  | reset => exact absurd rfl hreset
  | _ => exact h.1

theorem effect_cfg : t.cfg = s.cfg := effect_frame h cfg_notMem_writtenBy

/-! ## The stores -/

theorem effect_mem_wf (hwf : s.mem.wf memSize = true) : t.mem.wf memSize = true := by
  by_cases hmem : Field.mem ∈ writtenBy i
  · rcases eq_of_mem_mem_writtenBy hmem with ⟨a, v, rfl⟩ | ⟨offset, buffer, rfl⟩ | rfl
    · obtain ⟨-, ⟨-, rfl⟩ | ⟨ha, rfl⟩⟩ := h
      · exact hwf
      · exact Memory.wf_write hwf ha v
    · obtain ⟨-, ⟨-, rfl⟩ | ⟨hfits, rfl⟩⟩ := h
      · exact hwf
      · exact Memory.wf_load hwf hfits
    · obtain ⟨-, rfl⟩ := h
      rfl
  · rwa [show t.mem = s.mem from effect_frame h hmem]

/-- The snapshot is as it was, or the window, or empty at the start of a run. -/
theorem effect_snap : t.snap = s.snap ∨ (∃ x, i = .tick x ∧ tickArm x s = .endOfScreen ∧ t.snap = s.window) ∨
    (i = .reset ∧ t.snap = []) := by
  cases i with
  | tick x =>
    obtain ⟨-, ⟨-, rfl⟩ | ⟨-, -, rfl⟩ | ⟨-, -, -, rfl⟩ | ⟨hquit, hx, hphase, ⟨-, rfl⟩ | ⟨-, rfl⟩⟩⟩ := h
    case inr.inr.inr.inl => exact .inr (.inl ⟨x, rfl, tickArm_of_awaitingVBlank hquit hx hphase, rfl⟩)
    all_goals exact .inl rfl
  | reset =>
    obtain ⟨-, rfl⟩ := h
    exact .inr (.inr ⟨rfl, rfl⟩)
  | _ => exact .inl (effect_frame h (f := .snap) (by simp [writtenBy]))

theorem effect_snap_wf (hmem : s.mem.wf memSize = true) (hwf : s.snap.wf vramLen = true) :
    t.snap.wf vramLen = true := by
  rcases effect_snap h with hsnap | ⟨-, -, -, hsnap⟩ | ⟨-, hsnap⟩ <;> rw [hsnap]
  · exact hwf
  · exact Memory.wf_slice hmem
  · exact Memory.wf_nil vramLen

theorem effect_lock (hfree : s.lock = .free) : t.lock = .free := by
  cases i with
  | reset =>
    obtain ⟨-, rfl⟩ := h
    rfl
  | _ => exact (effect_frame h (f := .lock) (by simp [writtenBy])).trans hfree

/-- `lastTime` becomes TICK's operand, or its reset value, or stays. -/
theorem effect_lastTime_lt (hcfg : s.cfg.wf = true) (htick : ∀ x, i = .tick x → x < 2 ^ s.cfg.timeWidth)
    (htime : s.lastTime < 2 ^ s.cfg.timeWidth) : t.lastTime < 2 ^ s.cfg.timeWidth := by
  by_cases hw : Field.lastTime ∈ writtenBy i
  · rcases eq_of_lastTime_mem_writtenBy hw with ⟨x, rfl⟩ | rfl
    · have hx : x < 2 ^ s.cfg.timeWidth := htick x rfl
      obtain ⟨-, ⟨-, rfl⟩ | ⟨-, -, rfl⟩ | ⟨-, -, -, rfl⟩ | ⟨-, -, -, ⟨-, rfl⟩ | ⟨-, rfl⟩⟩⟩ := h
      · exact htime
      · exact htime
      · exact hx
      · exact hx
      · exact htime
    · obtain ⟨-, rfl⟩ := h
      obtain ⟨-, -, -, -, hreset⟩ := (config_wf_iff s.cfg).1 hcfg
      exact hreset
  · rwa [show t.lastTime = s.lastTime from effect_frame h hw]

/-! ## The cadence -/

theorem effect_quit_stays (hreset : i ≠ .reset) (hquit : s.quit = true) : t.quit = true := by
  by_cases hw : Field.quit ∈ writtenBy i
  · rcases eq_of_quit_mem_writtenBy hw with rfl | rfl
    · obtain ⟨-, rfl⟩ := h
      rfl
    · exact absurd rfl hreset
  · rw [show t.quit = s.quit from effect_frame h hw, hquit]

/-- What an operation appends to the trace and does to the phase: either no interrupt, with the phase kept, or in a TICK of a
changed time without quit the interrupt the phase names, with the phase toggled (43_interrupt_cadence.md R175, R176). -/
theorem effect_cadence (hreset : i ≠ .reset) :
    (t.phase = s.phase ∧ ∃ es, t.trace = s.trace ++ es ∧ interruptsOf es = [] ∧ (.quitSeen ∈ es → s.quit = true)) ∨
    (t.phase = s.phase.toggle ∧ t.trace = s.trace ++ [.irq s.phase.next] ∧ s.quit = false ∧
      ∃ x, i = .tick x ∧ x ≠ s.lastTime ∧ t.lastTime = x) := by
  cases i with
  | reset => exact absurd rfl hreset
  | tick x =>
    obtain ⟨-, ⟨hquit, rfl⟩ | ⟨-, -, rfl⟩ | ⟨hquit, hx, hphase, rfl⟩ | ⟨hquit, hx, hphase, ⟨-, rfl⟩ | ⟨-, rfl⟩⟩⟩ := h
    · exact .inl ⟨rfl, [.quitSeen], rfl, rfl, fun _ => hquit⟩
    · exact .inl ⟨rfl, [], by simp, rfl, by simp⟩
    · exact .inr ⟨by rw [hphase]; rfl, by rw [hphase]; rfl, hquit, x, rfl, hx, rfl⟩
    · exact .inr ⟨by rw [hphase]; rfl, by rw [hphase]; rfl, hquit, x, rfl, hx, rfl⟩
    · exact .inl ⟨rfl, [], by simp, rfl, by simp⟩
  | getframe pitch fb =>
    obtain ⟨-, -, ⟨-, rfl⟩ | ⟨-, rfl⟩⟩ := h
    · exact .inl ⟨rfl, _, rfl, rfl, by simp⟩
    · exact .inl ⟨rfl, [], by simp, rfl, by simp⟩
  | outSnd1 | outSnd2 =>
    obtain ⟨-, rfl⟩ := h
    exact .inl ⟨rfl, _, rfl, rfl, by simp⟩
  | _ =>
    have htrace : t.trace = s.trace := effect_frame h (f := .trace) (by simp [writtenBy])
    exact .inl ⟨effect_frame h (f := .phase) (by simp [writtenBy]), [], by simp [htrace], rfl, by simp⟩

end Effects

/-! ## Traces -/

theorem interruptsOf_append (es es' : List Event) : interruptsOf (es ++ es') = interruptsOf es ++ interruptsOf es' := by
  induction es with
  | nil => rfl
  | cons e es ih => cases e <;> simp [interruptsOf, ih]

theorem phaseAfter_append (p : Phase) (is js : List Interrupt) :
    phaseAfter p (is ++ js) = (phaseAfter p is).bind fun q => phaseAfter q js := by
  induction is generalizing p with
  | nil => rfl
  | cons i is ih =>
    rw [List.cons_append, phaseAfter, phaseAfter, ih]
    split <;> rfl

theorem phaseAfter_next (p : Phase) : phaseAfter p [p.next] = some p.toggle := if_pos rfl

theorem quietAfterQuit_of_no_interrupt {es : List Event} (h : interruptsOf es = []) : quietAfterQuit es = true := by
  induction es with
  | nil => rfl
  | cons e es ih => cases e <;> simp_all [interruptsOf, quietAfterQuit]

/-- Two quiet traces in a row are quiet when no interrupt of the second follows a Quit of the first. -/
theorem quietAfterQuit_append {es es' : List Event} (hes : quietAfterQuit es = true) (hes' : quietAfterQuit es' = true)
    (h : .quitSeen ∈ es → interruptsOf es' = []) : quietAfterQuit (es ++ es') = true := by
  induction es with
  | nil => exact hes'
  | cons e es ih => cases e <;> simp_all [quietAfterQuit, interruptsOf_append]

/-! ## Steps -/

/-- What does not depend on the inbox and survives every effect of a decoded operation survives every step. -/
theorem step_keeps {P : State → Prop} {s t : State} (hretire : ∀ rest u, P u → P (u.retire rest))
    (heffect : ∀ r i u, decodeRequest s.cfg r = .ok i → Effect s u i → P u) (hs : P s) (h : step s = .next t) : P t := by
  rcases step_next h with ⟨-, rfl⟩ | ⟨r, rest, i, u, -, hdecode, -, hexec, rfl⟩
  · exact hs
  · exact hretire rest u (heffect r i u hdecode (exec_next hexec))

theorem storesOk_iff {s : State} :
    s.storesOk = true ↔ s.cfg.wf = true ∧ s.mem.wf memSize = true ∧ s.snap.wf vramLen = true ∧
      s.lastTime < 2 ^ s.cfg.timeWidth ∧ s.lock = .free := by
  simp [State.storesOk, and_assoc]

theorem cadenceOk_iff {s : State} :
    s.cadenceOk = true ↔ phaseAfter .awaitingMid (interruptsOf s.trace) = some s.phase := decide_eq_true_iff

theorem quitOk_iff {s : State} :
    s.quitOk = true ↔ (.quitSeen ∈ s.trace → s.quit = true) ∧ quietAfterQuit s.trace = true := by
  rw [State.quitOk, Bool.and_eq_true, Bool.or_eq_true, Bool.not_eq_true', ← Bool.not_eq_true, List.contains_iff_mem,
    imp_iff_not_or]

/-- Settles O3: each store keeps its canonical form under every effect, the parameters are never written, and a decoded
TICK has an operand of TIME_WIDTH bits. -/
theorem storesStayCanonical : Obligations.StoresStayCanonical := by
  intro s t hs
  refine step_keeps (P := fun u => u.storesOk = true) (fun rest u hu => ?_) (fun r i u hdecode h => ?_) hs
  · simpa [State.storesOk] using hu
  · obtain ⟨hcfg, hmem, hsnap, htime, hfree⟩ := storesOk_iff.1 hs
    rw [storesOk_iff, effect_cfg h]
    refine ⟨hcfg, effect_mem_wf h hmem, effect_snap_wf h hmem hsnap, effect_lastTime_lt h hcfg ?_ htime,
      effect_lock h hfree⟩
    rintro x rfl
    exact decode_tick_lt hdecode

/-- Settles O4: what an operation appends to the trace is either no interrupt, with the phase kept, or the one the phase
names, with the phase toggled. -/
theorem interruptsAlternate : Obligations.InterruptsAlternate := by
  intro s t hs
  refine step_keeps (P := fun u => u.cadenceOk = true) (fun rest u hu => ?_) (fun r i u hdecode h => ?_) hs
  · simpa [State.cadenceOk] using hu
  · by_cases hreset : i = .reset
    · subst hreset
      obtain ⟨-, rfl⟩ := h
      rfl
    · rw [cadenceOk_iff] at hs ⊢
      rcases effect_cadence h hreset with ⟨hphase, es, htrace, hes, -⟩ | ⟨hphase, htrace, -⟩
      · rw [htrace, interruptsOf_append, hes, List.append_nil, hs, hphase]
      · rw [htrace, interruptsOf_append, phaseAfter_append, hs, hphase]
        exact phaseAfter_next s.phase

/-- Settles O5: a Quit is only appended with the signal set, which stays set, and an interrupt only with it clear, so with
no Quit before it. -/
theorem noInterruptAfterQuit : Obligations.NoInterruptAfterQuit := by
  intro s t hs
  refine step_keeps (P := fun u => u.quitOk = true) (fun rest u hu => ?_) (fun r i u hdecode h => ?_) hs
  · simpa [State.quitOk] using hu
  · by_cases hreset : i = .reset
    · subst hreset
      obtain ⟨-, rfl⟩ := h
      rfl
    · rw [quitOk_iff] at hs ⊢
      obtain ⟨hset, hquiet⟩ := hs
      rcases effect_cadence h hreset with ⟨-, es, htrace, hes, hseen⟩ | ⟨-, htrace, hquit, -⟩
      · refine ⟨fun hmem => effect_quit_stays h hreset ?_, ?_⟩
        · rw [htrace, List.mem_append] at hmem
          exact hmem.elim hset hseen
        · rw [htrace]
          exact quietAfterQuit_append hquiet (quietAfterQuit_of_no_interrupt hes) fun _ => hes
      · have hnone : .quitSeen ∉ s.trace := fun hmem => by simp [hset hmem] at hquit
        rw [htrace]
        exact ⟨fun hmem => by simp [hnone] at hmem, quietAfterQuit_append hquiet rfl fun hmem => absurd hmem hnone⟩

/-- Settles O50: only RESET clears either, and on a faulted block a step takes no other operation. -/
theorem quitAndFaultStay : Obligations.QuitAndFaultStay := by
  refine ⟨fun i s t hreset h => effect_quit_stays (exec_next h) hreset, fun s t h => ?_⟩
  rcases step_next h with ⟨-, rfl⟩ | ⟨r, rest, i, u, hinbox, hdecode, -, hexec, rfl⟩
  · exact .inr ⟨id, fun _ => id⟩
  · by_cases hreset : i = .reset
    · exact .inl ⟨r, rest, hinbox, hreset ▸ hdecode⟩
    · have hrun : s.fault = none := effect_running (exec_next hexec) hreset
      refine .inr ⟨fun hquit => ?_, fun v hfault => by simp [hrun] at hfault⟩
      rw [State.retire_quit]
      exact effect_quit_stays (exec_next hexec) hreset hquit

/-- Settles O31: the operation that changes the phase is the one that appends an interrupt. -/
theorem phaseChangesOnlyByToggling : Obligations.PhaseChangesOnlyByToggling := by
  intro i s t hreset h hphase
  rcases effect_cadence (exec_next h) hreset with ⟨hsame, -⟩ | ⟨htoggle, htrace, hquit, x, hi, hx, htime⟩
  · exact absurd hsame hphase
  · exact ⟨htoggle, x, hi, hx, htime, hquit, htrace⟩

/-- Settles O32: of the cadence fields, which only TICK and RESET read, the change keeps the signal. -/
theorem nothingElseTouchesTheCadence : Obligations.NothingElseTouchesTheCadence :=
  fun _ s p l htick hreset => exec_mapCadence htick hreset (fun _ => p) (fun _ => l) (q := id) rfl s

end Sys2Proof.Machine

/-!
The decoder and the encoder (30_encoding.md R81 to R85, R97, R101): the dispatch of a port, the reassembly of a head word,
and the statements about them.
-/
namespace Sys2Proof.Laws

/-! ## The dispatch of a port -/

/-- The read of the `k`-th member of INPUT_PORTS, number `p` (log entry 2). -/
def inputRead (p : Nat) : Nat → Instr
  | 0 => .inInp0
  | 1 => .inInp1
  | 2 => .inInp2
  | _ + 3 => .inInpNext p

/-- The operation an IN of `p` is, with the row of the port map it stands in. -/
theorem dispatchIn_cases (c : Config) (p : Nat) :
    (∃ k, c.inputPorts[k]? = some p ∧ dispatchIn c p = inputRead p k) ∨
    (p = c.pShres ∧ dispatchIn c p = .inShres) ∨ (p = c.pWdog ∧ dispatchIn c p = .inWdog) ∨
    (p ∉ c.readPorts ∧ dispatchIn c p = .inUnmapped p) := by
  unfold dispatchIn
  split
  · next h => exact .inl ⟨0, h, rfl⟩
  split
  · next h => exact .inl ⟨1, h, rfl⟩
  split
  · next h => exact .inl ⟨2, h, rfl⟩
  split
  · next h =>
    obtain ⟨k, hk⟩ := List.mem_iff_getElem?.1 (List.contains_iff_mem.1 h)
    rw [List.getElem?_drop, Nat.add_comm] at hk
    exact .inl ⟨k + 3, hk, rfl⟩
  split
  · next h => exact .inr (.inl ⟨h, rfl⟩)
  split
  · next h => exact .inr (.inr (.inl ⟨h, rfl⟩))
  · next h0 h1 h2 hnext hshres hwdog =>
    refine .inr (.inr (.inr ⟨fun hmem => ?_, rfl⟩))
    simp only [Config.readPorts, List.mem_append, List.mem_cons, List.not_mem_nil, or_false, hshres, hwdog] at hmem
    obtain ⟨k, hk⟩ := List.mem_iff_getElem?.1 hmem
    match k, hk with
    | 0, hk => exact h0 hk
    | 1, hk => exact h1 hk
    | 2, hk => exact h2 hk
    | k + 3, hk =>
      refine hnext (List.contains_iff_mem.2 (List.mem_iff_getElem?.2 ⟨k, ?_⟩))
      rwa [List.getElem?_drop, Nat.add_comm]

/-- The operation an OUT to `p` is, with the row of the port map it stands in. -/
theorem dispatchOut_cases (c : Config) (p : Nat) (v : Byte) :
    (p = c.pShamt ∧ dispatchOut c p v = .outShamt v) ∨ (p = c.pSnd1 ∧ dispatchOut c p v = .outSnd1 v) ∨
    (p = c.pShdata ∧ dispatchOut c p v = .outShdata v) ∨ (p = c.pSnd2 ∧ dispatchOut c p v = .outSnd2 v) ∨
    (p = c.pWdog ∧ dispatchOut c p v = .outWdog v) ∨ (p ∉ c.writePorts ∧ dispatchOut c p v = .outUnmapped p v) := by
  unfold dispatchOut
  repeat' split
  all_goals simp_all [Config.writePorts]

/-- A port number is a member of INPUT_PORTS in one place only. -/
theorem inputPort_unique {c : Config} (hc : c.wf = true) {p j k : Nat} (hj : c.inputPorts[j]? = some p)
    (hk : c.inputPorts[k]? = some p) : j = k := by
  obtain ⟨-, hread, -⟩ := (config_wf_iff c).1 hc
  obtain ⟨hnodup, -⟩ := List.nodup_append.1 hread
  obtain ⟨hlen, -⟩ := List.getElem?_eq_some_iff.1 hj
  exact (List.getElem?_inj hlen hnodup).1 (hj.trans hk.symm)

section ReadHalf

variable {c : Config} (hc : c.wf = true)
include hc

/-- The read half of the map is a function: its ports are pairwise distinct (00_scope.md R8). -/
theorem readPorts_distinct :
    (∀ p ∈ c.inputPorts, p ≠ c.pShres ∧ p ≠ c.pWdog) ∧ c.pShres ≠ c.pWdog := by
  obtain ⟨-, hread, -⟩ := (config_wf_iff c).1 hc
  obtain ⟨-, hpair, hcross⟩ := List.nodup_append.1 hread
  exact ⟨fun p hp => ⟨hcross p hp _ (by simp), hcross p hp _ (by simp)⟩, by simpa using hpair⟩

theorem dispatchIn_inputPort {p k : Nat} (hk : c.inputPorts[k]? = some p) : dispatchIn c p = inputRead p k := by
  obtain ⟨hinput, -⟩ := readPorts_distinct hc
  have hmem : p ∈ c.inputPorts := List.mem_of_getElem? hk
  rcases dispatchIn_cases c p with ⟨j, hj, h⟩ | ⟨hp, -⟩ | ⟨hp, -⟩ | ⟨hp, -⟩
  · rw [h, inputPort_unique hc hj hk]
  · exact absurd hp (hinput p hmem).1
  · exact absurd hp (hinput p hmem).2
  · exact absurd (List.mem_append_left _ hmem) hp

theorem dispatchIn_pShres : dispatchIn c c.pShres = .inShres := by
  obtain ⟨hinput, hne⟩ := readPorts_distinct hc
  rcases dispatchIn_cases c c.pShres with ⟨k, hk, -⟩ | ⟨-, h⟩ | ⟨hp, -⟩ | ⟨hp, -⟩
  · exact absurd rfl (hinput _ (List.mem_of_getElem? hk)).1
  · exact h
  · exact absurd hp hne
  · exact absurd (by simp [Config.readPorts]) hp

theorem dispatchIn_pWdog : dispatchIn c c.pWdog = .inWdog := by
  obtain ⟨hinput, hne⟩ := readPorts_distinct hc
  rcases dispatchIn_cases c c.pWdog with ⟨k, hk, -⟩ | ⟨hp, -⟩ | ⟨-, h⟩ | ⟨hp, -⟩
  · exact absurd rfl (hinput _ (List.mem_of_getElem? hk)).2
  · exact absurd hp.symm hne
  · exact h
  · exact absurd (by simp [Config.readPorts]) hp

end ReadHalf

/-- A read dispatches to the unmapped row exactly outside the read half of the map. -/
theorem dispatchIn_eq_inUnmapped_iff (c : Config) (p : Nat) :
    dispatchIn c p = .inUnmapped p ↔ p ∉ c.readPorts := by
  rcases dispatchIn_cases c p with ⟨k, hk, h⟩ | ⟨hp, h⟩ | ⟨hp, h⟩ | ⟨hp, h⟩ <;> rw [h]
  · have hmem : p ∈ c.readPorts := List.mem_append_left _ (List.mem_of_getElem? hk)
    match k with
    | 0 | 1 | 2 | _ + 3 => simp [inputRead, hmem]
  · simp [Config.readPorts, hp]
  · simp [Config.readPorts, hp]
  · simp [hp]

/-- A write dispatches to the unmapped row exactly outside the write half of the map. -/
theorem dispatchOut_eq_outUnmapped_iff (c : Config) (p : Nat) (v : Byte) :
    dispatchOut c p v = .outUnmapped p v ↔ p ∉ c.writePorts := by
  rcases dispatchOut_cases c p v with ⟨hp, h⟩ | ⟨hp, h⟩ | ⟨hp, h⟩ | ⟨hp, h⟩ | ⟨hp, h⟩ | ⟨hp, h⟩ <;> rw [h]
  case inr.inr.inr.inr.inr => simp [hp]
  all_goals simp [Config.writePorts, hp]

/-- The write half of the map is a function: its ports are pairwise distinct (00_scope.md R8). -/
theorem dispatchOut_mapped {c : Config} (hc : c.wf = true) (v : Byte) :
    dispatchOut c c.pShamt v = .outShamt v ∧ dispatchOut c c.pSnd1 v = .outSnd1 v ∧
    dispatchOut c c.pShdata v = .outShdata v ∧ dispatchOut c c.pSnd2 v = .outSnd2 v ∧
    dispatchOut c c.pWdog v = .outWdog v := by
  obtain ⟨-, -, hwrite, -⟩ := (config_wf_iff c).1 hc
  simp only [Config.writePorts, List.nodup_cons, List.mem_cons, List.not_mem_nil, or_false, not_or] at hwrite
  obtain ⟨⟨h12, h13, h14, h15⟩, ⟨h23, h24, h25⟩, ⟨h34, h35⟩, h45, -⟩ := hwrite
  simp [dispatchOut, Ne.symm h12, Ne.symm h13, Ne.symm h14, Ne.symm h15, Ne.symm h23, Ne.symm h24, Ne.symm h25,
    Ne.symm h34, Ne.symm h35, Ne.symm h45]

/-! ## The reassembly of a head word -/

/-- A port in range is read back whole. -/
theorem decode_in {c : Config} {p : Nat} (hp : p < 2 ^ c.portWidth) (o : Operands) :
    decode c (headOf c 0x0 p 0) o = .ok (dispatchIn c p) := by
  rw [decode_headOf_in, Nat.mod_eq_of_lt hp]

theorem decode_out {c : Config} {p : Nat} (hp : p < 2 ^ c.portWidth) (v : Byte) (o : Operands) :
    decode c (headOf c 0x1 p v) o = .ok (dispatchOut c p v) := by
  rw [decode_headOf_out, Nat.mod_eq_of_lt hp]

theorem headPort_lt (c : Config) (h : Nat) : headPort c h < 2 ^ c.portWidth := Nat.mod_lt _ (Nat.two_pow_pos _)

/-- The bits below the selector are the port field and the data field. -/
theorem headLow_eq (c : Config) (h : Nat) : headLow c h = headPort c h * 2 ^ 8 + (headData h).toNat := by
  rw [headLow, Config.opShift, Nat.add_comm, Nat.pow_add, Nat.mod_mul, headPort, headData, BitVec.toNat_ofNat,
    Nat.mul_comm (2 ^ 8) (_ % _), Nat.add_comm]

/-- A head word is its three fields. -/
theorem headOf_fields (c : Config) (h : Nat) : headOf c (headOp c h) (headPort c h) (headData h) = h := by
  rw [headOf, Nat.mod_eq_of_lt (headPort_lt c h), Nat.add_assoc, ← headLow_eq, headOp, headLow, Nat.mul_comm]
  exact Nat.div_add_mod h _

theorem headOp_eq_zero_iff (c : Config) (h : Nat) : headOp c h = 0 ↔ h < 2 ^ (c.portWidth + 8) :=
  Nat.div_eq_zero_iff_lt (Nat.two_pow_pos _)

/-- The head word of an IN, written with the data field 0. -/
theorem headOf_in (c : Config) {h : Nat} (hlt : h < 2 ^ (c.portWidth + 8)) :
    headOf c 0x0 (headPort c h) 0 = h / 256 * 256 := by
  have hport : headPort c h = h / 2 ^ 8 := by
    refine Nat.mod_eq_of_lt (Nat.div_lt_of_lt_mul ?_)
    rwa [← Nat.pow_add, Nat.add_comm]
  have hrange : h / 2 ^ 8 < 2 ^ c.portWidth := hport ▸ headPort_lt c h
  rw [headOf, hport, Nat.mod_eq_of_lt hrange]
  simp

/-- A CMD head word whose port and data fields are 0 is its selector. -/
theorem headOf_command (c : Config) {h : Nat} (hlow : headLow c h = 0) : headOf c (headOp c h) 0 0 = h := by
  have hdiv : 2 ^ c.opShift * headOp c h + headLow c h = h := Nat.div_add_mod h _
  rw [hlow] at hdiv
  simpa [headOf, Nat.mul_comm] using hdiv

/-! ## What is decoded is well-formed and encodes to its word -/

theorem dispatchIn_wf_and_encode (c : Config) {p : Nat} (hp : p < 2 ^ c.portWidth) :
    (dispatchIn c p).wf c = true ∧ (encode c (dispatchIn c p)).1 = headOf c 0x0 p 0 := by
  rcases dispatchIn_cases c p with ⟨k, hk, h⟩ | ⟨rfl, h⟩ | ⟨rfl, h⟩ | ⟨hmem, h⟩ <;> rw [h]
  · obtain ⟨hlen, hget⟩ := List.getElem?_eq_some_iff.1 hk
    match k with
    | 0 | 1 | 2 => simp [inputRead, Instr.wf, encode, Config.inputPort, hlen, hget]
    | k + 3 =>
      have hdrop : p ∈ c.inputPorts.drop 3 := by
        refine List.mem_iff_getElem?.2 ⟨k, ?_⟩
        rwa [List.getElem?_drop, Nat.add_comm]
      simp [inputRead, Instr.wf, encode, hdrop]
  · exact ⟨rfl, rfl⟩
  · exact ⟨rfl, rfl⟩
  · simp [Instr.wf, encode, hmem, hp]

theorem dispatchOut_wf_and_encode (c : Config) {p : Nat} (hp : p < 2 ^ c.portWidth) (v : Byte) :
    (dispatchOut c p v).wf c = true ∧ (encode c (dispatchOut c p v)).1 = headOf c 0x1 p v := by
  rcases dispatchOut_cases c p v with ⟨rfl, h⟩ | ⟨rfl, h⟩ | ⟨rfl, h⟩ | ⟨rfl, h⟩ | ⟨rfl, h⟩ | ⟨hmem, h⟩ <;> rw [h]
  case inr.inr.inr.inr.inr => simp [Instr.wf, encode, hmem, hp]
  all_goals exact ⟨rfl, rfl⟩

theorem decodeCommand_wf_and_encode {c : Config} {op : Nat} {o : Operands} {i : Instr}
    (h : decodeCommand c op o = .ok i) : i.wf c = true ∧ (encode c i).1 = headOf c op 0 0 := by
  unfold decodeCommand at h
  repeat' split at h
  all_goals cases h
  all_goals subst op
  · exact ⟨decide_eq_true (timeOperand_lt c o), rfl⟩
  all_goals exact ⟨rfl, rfl⟩

/-- Every selector from 0x2 to 0x9 is a CMD operation (30_encoding.md R82). -/
theorem decodeCommand_ne_error {c : Config} {op : Nat} (hlow : 0x2 ≤ op) (hhigh : op < 0xA) (o : Operands)
    (e : InvalidWord) : decodeCommand c op o ≠ .error e := by
  interval_cases op <;> simp [decodeCommand]

/-- The words that are no operation, by selector and the bits below it. -/
theorem decode_error_iff (c : Config) (h : Nat) (o : Operands) :
    (∃ e, decode c h o = .error e) ↔ 0xA ≤ headOp c h ∨ (0x2 ≤ headOp c h ∧ headLow c h ≠ 0) := by
  unfold decode
  split
  · next hin => simp [hin]
  split
  · next hout => simp [hout]
  split
  · next hreserved => simp [hreserved]
  split
  · next hin hout _ hbits =>
    have hcommand : 0x2 ≤ headOp c h := by omega
    simp [hcommand, hbits]
  · next hin hout hreserved hbits =>
    have hok : ∀ e, decodeCommand c (headOp c h) o ≠ .error e :=
      decodeCommand_ne_error (by omega) (by omega) o
    simp [hok, hreserved, not_not.1 hbits]

/-! ## What is encoded decodes to the operation -/

@[simp] theorem wf_inUnmapped_iff (c : Config) (p : Nat) :
    (Instr.inUnmapped p).wf c = true ↔ p ∉ c.readPorts ∧ p < 2 ^ c.portWidth := by simp [Instr.wf]

@[simp] theorem wf_outUnmapped_iff (c : Config) (p : Nat) (v : Byte) :
    (Instr.outUnmapped p v).wf c = true ↔ p ∉ c.writePorts ∧ p < 2 ^ c.portWidth := by simp [Instr.wf]

section Encoded

variable {c : Config} (hc : c.wf = true)
include hc

theorem decode_readPort {p : Nat} {i : Instr} (hp : p ∈ c.readPorts) (hi : dispatchIn c p = i) (o : Operands) :
    decode c (headOf c 0x0 p 0) o = .ok i := by
  obtain ⟨-, -, -, hports, -⟩ := (config_wf_iff c).1 hc
  rw [decode_in (hports p (List.mem_append_left _ hp)), hi]

theorem decode_writePort {p : Nat} {v : Byte} {i : Instr} (hp : p ∈ c.writePorts) (hi : dispatchOut c p v = i)
    (o : Operands) : decode c (headOf c 0x1 p v) o = .ok i := by
  obtain ⟨-, -, -, hports, -⟩ := (config_wf_iff c).1 hc
  rw [decode_out (hports p (List.mem_append_right _ hp)), hi]

theorem decode_inputPort {p k : Nat} (hk : c.inputPorts[k]? = some p) (o : Operands) :
    decode c (headOf c 0x0 p 0) o = .ok (inputRead p k) :=
  decode_readPort hc (List.mem_append_left _ (List.mem_of_getElem? hk)) (dispatchIn_inputPort hc hk) o

end Encoded

theorem getElem?_inputPort {c : Config} {k : Nat} (hk : k < c.inputPorts.length) :
    c.inputPorts[k]? = some (c.inputPort k) := by
  simp [Config.inputPort, hk]

/-! ## The statements -/

/-- Settles O11. The encoding of a port operation is the head word of its port, and the ports of a direction are pairwise
distinct; the encoding of a CMD operation is its selector's word, whose operand record is read back. -/
theorem decodeOfEncodeIsTheOperation : Obligations.DecodeOfEncodeIsTheOperation := by
  intro c i hc hi
  cases i with
  | inInp0 | inInp1 | inInp2 => exact decode_inputPort hc (getElem?_inputPort (of_decide_eq_true hi)) _
  | inInpNext p =>
    obtain ⟨k, hk⟩ := List.mem_iff_getElem?.1 (List.contains_iff_mem.1 hi)
    rw [List.getElem?_drop, Nat.add_comm] at hk
    exact decode_inputPort hc hk _
  | inShres => exact decode_readPort hc (by simp [Config.readPorts]) (dispatchIn_pShres hc) _
  | inWdog => exact decode_readPort hc (by simp [Config.readPorts]) (dispatchIn_pWdog hc) _
  | inUnmapped p =>
    obtain ⟨hmem, hp⟩ := (wf_inUnmapped_iff c p).1 hi
    exact (decode_in hp _).trans (congrArg _ ((dispatchIn_eq_inUnmapped_iff c p).2 hmem))
  | outShamt v =>
    obtain ⟨hrow, -⟩ := dispatchOut_mapped hc v
    exact decode_writePort hc (by simp [Config.writePorts]) hrow _
  | outSnd1 v =>
    obtain ⟨-, hrow, -⟩ := dispatchOut_mapped hc v
    exact decode_writePort hc (by simp [Config.writePorts]) hrow _
  | outShdata v =>
    obtain ⟨-, -, hrow, -⟩ := dispatchOut_mapped hc v
    exact decode_writePort hc (by simp [Config.writePorts]) hrow _
  | outSnd2 v =>
    obtain ⟨-, -, -, hrow, -⟩ := dispatchOut_mapped hc v
    exact decode_writePort hc (by simp [Config.writePorts]) hrow _
  | outWdog v =>
    obtain ⟨-, -, -, -, hrow⟩ := dispatchOut_mapped hc v
    exact decode_writePort hc (by simp [Config.writePorts]) hrow _
  | outUnmapped p v =>
    obtain ⟨hmem, hp⟩ := (wf_outUnmapped_iff c p v).1 hi
    exact (decode_out hp v _).trans (congrArg _ ((dispatchOut_eq_outUnmapped_iff c p v).2 hmem))
  | tick t =>
    have ht : timeOperand c { time := t } = t := Nat.mod_eq_of_lt (of_decide_eq_true hi)
    exact (decode_headOf_command c (op := 0x2) (by decide) (by decide) _).trans (congrArg (Except.ok ∘ Instr.tick) ht)
  | memrd | memwr | load | snapshot | getframe | setquit | reset =>
    exact decode_headOf_command c (by decide) (by decide) _

/-- Settles O12, by the selector: an IN is written with the data field 0, an OUT's head word is its three fields, a CMD
head word its selector. -/
theorem encodeOfDecodeIsTheWord : Obligations.EncodeOfDecodeIsTheWord := by
  intro c h o i hdecode
  unfold decode at hdecode
  split at hdecode
  · next hop =>
    cases hdecode
    have hlt : h < 2 ^ (c.portWidth + 8) := (headOp_eq_zero_iff c h).1 hop
    obtain ⟨hwf, hword⟩ := dispatchIn_wf_and_encode c (headPort_lt c h)
    exact ⟨hwf, by rw [hword, if_pos hlt, headOf_in c hlt]⟩
  · next hop =>
    rw [headOp_eq_zero_iff] at hop
    rw [if_neg hop]
    split at hdecode
    · next hout =>
      cases hdecode
      obtain ⟨hwf, hword⟩ := dispatchOut_wf_and_encode c (headPort_lt c h) (headData h)
      exact ⟨hwf, by rw [hword, ← hout, headOf_fields]⟩
    split at hdecode
    · cases hdecode
    split at hdecode
    · cases hdecode
    · next hlow =>
      obtain ⟨hwf, hword⟩ := decodeCommand_wf_and_encode hdecode
      exact ⟨hwf, by rw [hword, headOf_command c (not_not.1 hlow)]⟩

/-- Settles O9: the selector is the head word's quotient, the bits below it the remainder. -/
theorem invalidWordsAreTheReservedOnes : Obligations.InvalidWordsAreTheReservedOnes := by
  have hgeneral (c : Config) (h : Nat) (o : Operands) : (∃ e, decode c h o = .error e) ↔
      (0xA * 2 ^ (c.portWidth + 8) ≤ h ∨ (0x2 * 2 ^ (c.portWidth + 8) ≤ h ∧ h % 2 ^ (c.portWidth + 8) ≠ 0)) := by
    have hop (n : Nat) : n ≤ headOp c h ↔ n * 2 ^ (c.portWidth + 8) ≤ h := Nat.le_div_iff_mul_le (Nat.two_pow_pos _)
    rw [decode_error_iff, hop, hop]
    rfl
  refine ⟨hgeneral, fun c h o hwidth => ?_⟩
  simpa [hwidth] using hgeneral c h o

/-- Settles O13: the read half of the default map is 0, 1, 2, 3 and 6, the write half 2 to 6. -/
theorem unmappedPortsOfTheDefaultMap : Obligations.UnmappedPortsOfTheDefaultMap := by
  intro p v
  rw [dispatchIn_eq_inUnmapped_iff, dispatchOut_eq_outUnmapped_iff]
  simp only [Config.readPorts, Config.writePorts, Config.standard, List.cons_append, List.nil_append, List.mem_cons,
    List.not_mem_nil, or_false]
  omega

/-- Settles O10, word by word. -/
theorem sampleWordsDecode : Obligations.SampleWordsDecode := by
  unfold Obligations.SampleWordsDecode
  decide

end Sys2Proof.Laws

/-!
The remaining operations in a running block, one equation an arm, and the statements about single operations
(40_memory_ops.md R110, 43_interrupt_cadence.md R171, R174, 44_video_decompress.md R190, 45_port_dispatch.md R221 to R225,
70_reset_and_hazards.md R290).
-/
namespace Sys2Proof.Machine

section Running

variable {s : State} (hrun : s.fault = none)
include hrun

/-! ## Ports -/

theorem readInput_running (p : Nat) : readInput p s = .next (s.useDraw.respond (.byte (Config.inputByte p s.draws))) :=
  unlessTerminated_running hrun _

theorem exec_inWdog : exec .inWdog s = .next (s.respond (.byte s.cfg.wdogRead)) := unlessTerminated_running hrun _

variable (p : Nat)

theorem exec_inUnmapped_strict (hstrict : s.cfg.strictPorts = true) :
    exec (.inUnmapped p) s = raise (.unmappedPort .read p) s :=
  (unlessTerminated_running hrun _).trans (if_pos hstrict)

theorem exec_inUnmapped_production (hstrict : s.cfg.strictPorts = false) :
    exec (.inUnmapped p) s = .next (s.respond (.byte 0x00)) :=
  (unlessTerminated_running hrun _).trans (if_neg (Bool.eq_false_iff.1 hstrict))

theorem exec_outUnmapped_strict (v : Byte) (hstrict : s.cfg.strictPorts = true) :
    exec (.outUnmapped p v) s = raise (.unmappedPort .write p) s :=
  (unlessTerminated_running hrun _).trans (if_pos hstrict)

theorem exec_outUnmapped_production (v : Byte) (hstrict : s.cfg.strictPorts = false) :
    exec (.outUnmapped p v) s = .next (s.respond (.triggers 0)) :=
  (unlessTerminated_running hrun _).trans (if_neg (Bool.eq_false_iff.1 hstrict))

/-! ## Memory -/

variable {offset : Nat} {buffer : List Byte}

theorem exec_load_fits (hfits : offset + buffer.length ≤ memSize) :
    exec (.load offset buffer) s = .next ({ s with mem := s.mem.load offset buffer }.respond .done) :=
  (unlessTerminated_running hrun _).trans (if_neg (Nat.not_lt.2 hfits))

theorem exec_load_overflow (hover : memSize < offset + buffer.length) :
    exec (.load offset buffer) s = raise (.loadOverflow offset buffer.length) s :=
  (unlessTerminated_running hrun _).trans (if_pos hover)

/-! ## TICK and GETFRAME -/

theorem exec_tick_waits {t : Nat} (hquit : s.quit = false) (ht : t ≠ s.lastTime) (hphase : s.phase = .awaitingVBlank)
    (hheld : s.lock ≠ .free) : exec (.tick t) s = wait s := by
  rw [exec, execTick, unlessTerminated_running hrun, tickArm_of_awaitingVBlank hquit ht hphase]
  simp only [acquire_held hheld]

variable {pitch : Nat} {fb : List Byte}

theorem exec_getframe_draws (hok : frameBufferOk pitch fb = true) (hfree : s.lock = .free) :
    exec (.getframe pitch fb) s = .next (({ s with lock := .consumer }.release).deliverFrame s.snap pitch fb) := by
  rw [exec, execGetframe, unlessTerminated_running hrun, if_pos hok, acquire_free hfree]

theorem exec_getframe_waits (hok : frameBufferOk pitch fb = true) (hheld : s.lock ≠ .free) :
    exec (.getframe pitch fb) s = wait s := by
  rw [exec, execGetframe, unlessTerminated_running hrun, if_pos hok, acquire_held hheld]

theorem exec_getframe_refused (hbad : frameBufferOk pitch fb = false) :
    exec (.getframe pitch fb) s = .refused .badFrameBuffer :=
  (unlessTerminated_running hrun _).trans (if_neg (Bool.eq_false_iff.1 hbad))

end Running

theorem frameBufferOk_eq_false_iff (pitch : Nat) (fb : List Byte) :
    frameBufferOk pitch fb = false ↔ pitch < 224 ∨ fb.length < 255 * pitch + 224 := by
  rw [← Bool.not_eq_true, frameBufferOk_iff]
  omega

theorem runInProgress_iff {s : State} : s.runInProgress = true ↔ s.runStarted = true ∧ s.fault = none := by
  simp [State.runInProgress]

theorem exec_reset_starts {s : State} (h : ¬(s.runStarted = true ∧ s.fault = none)) :
    exec .reset s = .next (s.startRun.respond .done) :=
  if_neg (mt runInProgress_iff.1 h)

theorem exec_reset_refused {s : State} (hstarted : s.runStarted = true) (hrun : s.fault = none) :
    exec .reset s = .refused .secondReset :=
  if_pos (runInProgress_iff.2 ⟨hstarted, hrun⟩)

/-! ## The statements -/

theorem inputPort_of_getElem? {c : Config} {p k : Nat} (hk : c.inputPorts[k]? = some p) : c.inputPort k = p := by
  simp [Config.inputPort, hk]

/-- Settles O14: each row reads its member of INPUT_PORTS, and a read of an input port only draws. -/
theorem inputPortReadsReturnADraw : Obligations.InputPortReadsReturnADraw := by
  refine ⟨by decide, by decide, by decide, by decide, fun v => ⟨rfl, rfl, rfl⟩, fun s p hrun =>
    ⟨fun hp => ?_, fun hp => ?_, fun hp => ?_, readInput_running hrun p⟩⟩
  all_goals
    cases inputPort_of_getElem? hp
    exact readInput_running hrun _

/-- Settles O21, by the equation of the watchdog read. -/
theorem watchdogReadReturnsTheParameter : Obligations.WatchdogReadReturnsTheParameter := fun _ hrun => exec_inWdog hrun

/-- Settles O23, by the two port treatments. -/
theorem unmappedReadFaultsOrReturnsZero : Obligations.UnmappedReadFaultsOrReturnsZero :=
  fun p _ hrun => ⟨exec_inUnmapped_strict hrun p, exec_inUnmapped_production hrun p⟩

/-- Settles O24, by the two port treatments. -/
theorem unmappedWriteFaultsOrDoesNothing : Obligations.UnmappedWriteFaultsOrDoesNothing :=
  fun p v _ hrun => ⟨exec_outUnmapped_strict hrun p v, exec_outUnmapped_production hrun p v⟩

/-- Settles O25: the signal is the first of TICK's tests. -/
theorem tickReportsQuit : Obligations.TickReportsQuit := fun _ _ hrun hquit => exec_tick_quit hrun hquit

theorem bytes_slice (m : Memory) (base n : Nat) : (m.slice base n).bytes 0 n = m.bytes base n := by
  refine List.map_congr_left fun i hi => ?_
  rw [Nat.zero_add, Memory.read_slice (List.mem_range.1 hi)]

/-- Settles O28: the new snapshot is the window, a slice of MEM, whose bytes are the ones SNAPSHOT returns. -/
theorem tickReportsVBlankAndTakesTheSnapshot : Obligations.TickReportsVBlankAndTakesTheSnapshot := by
  refine fun t s hrun hquit ht hphase => ⟨fun hfree => ⟨s.window, ?_, fun i => Memory.read_slice, ?_⟩,
    exec_tick_waits hrun hquit ht hphase⟩
  · rw [exec_tick_endOfScreen hrun hquit ht hphase hfree]
    simp [State.finishEndOfScreen, State.reportVBlank, State.release, State.copyIn, State.beginEndOfScreen, State.emit,
      State.respond, State.window, hfree]
  · rw [exec_snapshot hrun, State.window, bytes_slice]
    rfl

/-- Settles O35: the block store keeps the canonical form, byte k of it is read at offset + k, and a read outside its
bytes does not see it. -/
theorem loadCopiesTheBufferOrFaults : Obligations.LoadCopiesTheBufferOrFaults := by
  refine fun offset buffer s hrun => ⟨fun hfits => ?_, fun hover => ?_⟩
  · exact ⟨s.mem.load offset buffer, exec_load_fits hrun hfits,
      fun hwf => ⟨Memory.wf_load hwf hfits, fun k => Memory.read_load_inside hwf hfits⟩,
      fun b => Memory.read_load_outside⟩
  · rw [exec_load_overflow hrun hover, raise_eq]

/-- Settles O38, by the check of the operands and then the lock. -/
theorem getframeDrawsTheSnapshot : Obligations.GetframeDrawsTheSnapshot := by
  refine fun pitch fb s hrun => ⟨fun hpitch hfb hfree => ?_, fun hpitch hfb hheld => ?_, fun hbad => ?_⟩
  · rw [exec_getframe_draws hrun ((frameBufferOk_iff pitch fb).2 ⟨hpitch, hfb⟩) hfree]
    simp [State.deliverFrame, State.release, State.emit, State.respond, hfree]
  · exact exec_getframe_waits hrun ((frameBufferOk_iff pitch fb).2 ⟨hpitch, hfb⟩) hheld
  · exact exec_getframe_refused hrun ((frameBufferOk_eq_false_iff pitch fb).2 hbad)

/-- Settles O51, by whether a run is in progress. -/
theorem resetStartsARunOnce : Obligations.ResetStartsARunOnce := by
  refine fun s => ⟨fun hidle => ?_, exec_reset_refused⟩
  refine exec_reset_starts fun ⟨hstarted, hrun⟩ => ?_
  rcases hidle with hfresh | hfault
  · simp [hfresh] at hstarted
  · exact hfault hrun

/-- Settles O54: the amount is at most 7, so the divisor 2^(8 - amount) divides 256, with the quotient 2^amount. -/
theorem shiftResultForms : Obligations.ShiftResultForms := by
  intro d a
  have hsplit : 2 ^ a.toNat * 2 ^ (8 - a.toNat) = 256 := by
    rw [← Nat.pow_add, Nat.add_sub_cancel' (show a.toNat ≤ 8 from Nat.le_of_lt a.isLt)]
  have hpos : 0 < 2 ^ a.toNat := Nat.two_pow_pos _
  rw [shiftResult_toNat]
  refine ⟨?_, ?_⟩
  · rw [← hsplit, Nat.mul_comm d.toNat, Nat.mul_div_mul_left _ _ hpos]
  · have hd : d.toNat = d.toNat % 256 + 2 ^ (8 - a.toNat) * (2 ^ a.toNat * (d.toNat / 256)) := by
      rw [← Nat.mul_assoc, Nat.mul_comm (2 ^ (8 - _)), hsplit, Nat.mod_add_div]
    conv_lhs => rw [hd, Nat.add_mul_div_left _ _ (Nat.two_pow_pos _)]
    rw [Nat.mul_comm (d.toNat / 256), Nat.add_comm]

/-! ## Reset and the inbox -/

/-- Settles O1: the reset memories list no cell, and an unlisted cell reads as 0x00. -/
theorem resetLeavesTheResetValues : Obligations.ResetLeavesTheResetValues :=
  ⟨Memory.read_nil, Memory.read_nil, rfl, rfl, rfl, rfl, rfl, rfl, rfl, rfl, rfl⟩

/-- Between operations the fine-grained invariant asks for a free lock and canonical memories only. -/
theorem start_ok {s : State} (hmem : s.mem.wf memSize = true) (hsnap : s.snap.wf vramLen = true)
    (hfree : s.lock = .free) : (Contexts.start s).ok :=
  ⟨congrArg some hfree.symm, ⟨fun _ h => (nomatch h), fun _ _ _ _ h => (nomatch h)⟩, hmem, hsnap,
    fun _ _ _ _ h => nomatch h⟩

/-- Settles O2: nothing is stored and nothing has been emitted. -/
theorem resetStateMeetsTheInvariants : Obligations.ResetStateMeetsTheInvariants :=
  ⟨by decide, rfl, rfl, start_ok rfl rfl rfl⟩

theorem step_of_inbox {s : State} {r : Request} {rest : List Request} (hinbox : s.inbox = r :: rest) :
    step s = takeRequest r rest s := by
  rw [step, hinbox]

/-- Settles O6: settling the answer of an admitted operation brings the inbox up to date and writes nothing else. -/
theorem stepTakesTheOldestOperation : Obligations.StepTakesTheOldestOperation := by
  intro s r rest i hinbox hdecode _ hadmits
  rw [step_of_inbox hinbox, takeRequest, hdecode]
  simp only [hadmits, if_true]
  cases exec i s with
  | next t => exact congrArg Host.Outcome.next (State.retire_eq rest t)
  | fault f => rfl
  | refused x => rfl

/-- Settles O7: an empty inbox gives a step nothing to take. -/
theorem nothingIssuedNothingChanges : Obligations.NothingIssuedNothingChanges := by
  intro s hinbox
  rw [step, hinbox]

/-- Settles O8: a request is decoded first and held to the agent table second. -/
theorem stepRefusesInvalidWordsAndWrongAgents : Obligations.StepRefusesInvalidWordsAndWrongAgents := by
  refine fun s r rest hinbox => ⟨fun e hdecode => ?_, fun i hdecode henforced hmay => ?_⟩
  · rw [step_of_inbox hinbox, takeRequest, hdecode]
  · rw [step_of_inbox hinbox, takeRequest, hdecode]
    simp [admits, henforced, hmay]

/-- Settles O52, code by code. -/
theorem resultAndFaultCodes : Obligations.ResultAndFaultCodes :=
  ⟨rfl, rfl, rfl, rfl, fun _ => rfl, fun _ _ => rfl, fun _ _ => rfl⟩

end Sys2Proof.Machine

/-!
The whole machine (10_state.md R20, R42, 40_memory_ops.md R114, 60_exceptions.md R250 to R258): which violations and which
stops an operation has, what it does not read, and the statements about them.
-/
namespace Sys2Proof.Machine

/-! ## Violations -/

/-- The operation `i` raises the violation on this condition (60_exceptions.md R251, R255). -/
def Raises (s : State) (i : Instr) : Violation → Prop
  | .memOutOfRange a => memSize ≤ a ∧ (i = .memrd a ∨ ∃ x, i = .memwr a x)
  | .loadOverflow offset n => memSize < offset + n ∧ ∃ bs : List Byte, bs.length = n ∧ i = .load offset bs
  | .unmappedPort dir p => s.cfg.strictPorts = true ∧
      ((dir = .read ∧ i = .inUnmapped p) ∨ (dir = .write ∧ ∃ x, i = .outUnmapped p x))

/-- A next state that holds a violation is the fault entry of an operation that raises it: `fault` is written and nothing
else of S, and nothing is returned. -/
theorem effect_fault {i : Instr} {s t : State} (h : Effect s t i) {v : Violation} (hv : t.fault = some v) :
    t = (s.record v).respond .nothing ∧ Raises s i v := by
  cases i with
  | inUnmapped | outUnmapped | memrd | memwr | load =>
    obtain ⟨hrun, ⟨hcond, rfl⟩ | ⟨-, rfl⟩⟩ := h
    · cases hv
      exact ⟨rfl, by simp [Raises, hcond]⟩
    · cases hrun.symm.trans hv
  | reset =>
    obtain ⟨-, rfl⟩ := h
    cases hv
  | _ =>
    have hsame : t.fault = s.fault := effect_frame h (f := .fault) (by simp [writtenBy])
    cases (hsame.trans (effect_running h (by simp))).symm.trans hv

/-! ## Stops -/

theorem exec_terminated {i : Instr} {s : State} {v : Violation} (hreset : i ≠ .reset) (hv : s.fault = some v) :
    exec i s = .fault (.terminated v) := by
  cases i with
  | reset => exact absurd rfl hreset
  | _ => exact unlessTerminated_terminated hv _

theorem exec_tick_running {s : State} (hrun : s.fault = none) (x : Nat) : ∃ t, exec (.tick x) s = .next t := by
  rcases tickArm_cases x s with ⟨hquit, -⟩ | ⟨hquit, hx, -⟩ | ⟨hquit, hx, hphase, -⟩ | ⟨hquit, hx, hphase, -⟩
  · exact ⟨_, exec_tick_quit hrun hquit⟩
  · exact ⟨_, exec_tick_unchanged hrun hquit hx⟩
  · exact ⟨_, exec_tick_mid hrun hquit hx hphase⟩
  · by_cases hfree : s.lock = .free
    · exact ⟨_, exec_tick_endOfScreen hrun hquit hx hphase hfree⟩
    · exact ⟨_, exec_tick_waits hrun hquit hx hphase hfree⟩

/-- In a running block every operation but RESET answers a next state, but for a GETFRAME with a bad buffer. -/
theorem exec_running {i : Instr} {s : State} (hreset : i ≠ .reset) (hrun : s.fault = none) :
    (∃ t, exec i s = .next t) ∨
    (∃ pitch fb, i = .getframe pitch fb ∧ frameBufferOk pitch fb = false ∧ exec i s = .refused .badFrameBuffer) := by
  cases i with
  | reset => exact absurd rfl hreset
  | tick x => exact .inl (exec_tick_running hrun x)
  | getframe pitch fb =>
    by_cases hok : frameBufferOk pitch fb = true
    · by_cases hfree : s.lock = .free
      · exact .inl ⟨_, exec_getframe_draws hrun hok hfree⟩
      · exact .inl ⟨_, exec_getframe_waits hrun hok hfree⟩
    · rw [Bool.not_eq_true] at hok
      exact .inr ⟨pitch, fb, rfl, hok, exec_getframe_refused hrun hok⟩
  | inUnmapped p =>
    cases hstrict : s.cfg.strictPorts
    · exact .inl ⟨_, exec_inUnmapped_production hrun p hstrict⟩
    · exact .inl ⟨_, exec_inUnmapped_strict hrun p hstrict⟩
  | outUnmapped p v =>
    cases hstrict : s.cfg.strictPorts
    · exact .inl ⟨_, exec_outUnmapped_production hrun p v hstrict⟩
    · exact .inl ⟨_, exec_outUnmapped_strict hrun p v hstrict⟩
  | memrd a =>
    rcases Nat.lt_or_ge a memSize with ha | ha
    · exact .inl ⟨_, exec_memrd_in_range hrun ha⟩
    · exact .inl ⟨_, exec_memrd_out_of_range hrun ha⟩
  | memwr a v =>
    rcases Nat.lt_or_ge a memSize with ha | ha
    · exact .inl ⟨_, exec_memwr_in_range hrun v ha⟩
    · exact .inl ⟨_, exec_memwr_out_of_range hrun v ha⟩
  | load offset buffer =>
    rcases Nat.lt_or_ge memSize (offset + buffer.length) with hover | hfits
    · exact .inl ⟨_, exec_load_overflow hrun hover⟩
    · exact .inl ⟨_, exec_load_fits hrun hfits⟩
  | _ => exact .inl ⟨_, unlessTerminated_running hrun _⟩

/-- RESET never faults, and is refused in a run in progress only. -/
theorem exec_reset_cases (s : State) :
    (∃ t, exec .reset s = .next t) ∨
    (s.runStarted = true ∧ s.fault = none ∧ exec .reset s = .refused .secondReset) := by
  by_cases h : s.runStarted = true ∧ s.fault = none
  · obtain ⟨hstarted, hrun⟩ := h
    exact .inr ⟨hstarted, hrun, exec_reset_refused hstarted hrun⟩
  · exact .inl ⟨_, exec_reset_starts h⟩

/-- Only an operation that takes the lock can find it held. -/
theorem effect_waiting {i : Instr} {s t : State} (h : Effect s t i) (hwait : t.result = .waiting) :
    s.lock ≠ .free ∧ ((∃ time, i = .tick time) ∨ ∃ pitch fb, i = .getframe pitch fb) := by
  cases i with
  | tick x =>
    obtain ⟨-, ⟨-, rfl⟩ | ⟨-, -, rfl⟩ | ⟨-, -, -, rfl⟩ | ⟨-, -, -, ⟨-, rfl⟩ | ⟨hheld, rfl⟩⟩⟩ := h
    case inr.inr.inr.inr => exact ⟨hheld, .inl ⟨x, rfl⟩⟩
    all_goals cases hwait
  | getframe pitch fb =>
    obtain ⟨-, -, ⟨-, rfl⟩ | ⟨hheld, rfl⟩⟩ := h
    · cases hwait
    · exact ⟨hheld, .inr ⟨pitch, fb, rfl⟩⟩
  | inUnmapped | outUnmapped | memrd | memwr | load =>
    obtain ⟨-, ⟨-, rfl⟩ | ⟨-, rfl⟩⟩ := h <;> cases hwait
  | _ =>
    obtain ⟨-, rfl⟩ := h
    cases hwait

/-! ## The statements about violations and stops -/

/-- Settles O44: an operation that changes `fault` found it clear, so it leaves a violation there. -/
theorem faultEntryIsPreciseAndTerminal : Obligations.FaultEntryIsPreciseAndTerminal := by
  refine ⟨fun i s t hreset h hchanged => ?_, fun i s v => exec_terminated⟩
  have heffect : Effect s t i := exec_next h
  rw [effect_running heffect hreset] at hchanged
  obtain ⟨v, hv⟩ := Option.ne_none_iff_exists'.1 hchanged
  obtain ⟨ht, -⟩ := effect_fault heffect hv
  exact ⟨v, ht⟩

/-- Settles O45: the violation a next state holds is one its operation raises. -/
theorem onlyTheListedViolations : Obligations.OnlyTheListedViolations := by
  intro i s t v h hv
  obtain ⟨-, hraises⟩ := effect_fault (exec_next h) hv
  cases v <;> exact hraises

/-- Settles O46: a terminated block, a bad buffer and a run in progress are the only stops. -/
theorem onlyTheListedStops : Obligations.OnlyTheListedStops := by
  refine ⟨fun i s f h => ?_, fun i s r h => ?_, fun i s t h => effect_waiting (exec_next h)⟩
  · by_cases hreset : i = .reset
    · subst hreset
      rcases exec_reset_cases s with ⟨t, ht⟩ | ⟨-, -, ht⟩ <;> cases ht.symm.trans h
    · refine ⟨hreset, ?_⟩
      cases hv : s.fault with
      | none => rcases exec_running hreset hv with ⟨t, ht⟩ | ⟨-, -, -, -, ht⟩ <;> cases ht.symm.trans h
      | some v =>
        cases (exec_terminated hreset hv).symm.trans h
        exact ⟨v, rfl, rfl⟩
  · by_cases hreset : i = .reset
    · subst hreset
      rcases exec_reset_cases s with ⟨t, ht⟩ | ⟨hstarted, hrun, ht⟩ <;> cases ht.symm.trans h
      exact .inr ⟨rfl, rfl, hstarted, hrun⟩
    · cases hv : s.fault with
      | none =>
        rcases exec_running hreset hv with ⟨t, ht⟩ | ⟨pitch, fb, hi, hbad, ht⟩ <;> cases ht.symm.trans h
        exact .inl ⟨rfl, pitch, fb, hi, (frameBufferOk_eq_false_iff pitch fb).1 hbad⟩
      | some v => cases (exec_terminated hreset hv).symm.trans h

/-! ## Memory is passive -/

theorem writtenBy_subset_of_memoryOperation {i : Instr} (hi : isMemoryOperation i = true) :
    writtenBy i ⊆ [.mem, .fault] := by
  cases i <;> simp [isMemoryOperation, writtenBy] at hi ⊢

theorem mem_notMem_writtenBy_of_portOperation {i : Instr} (hi : isPortOperation i = true) : .mem ∉ writtenBy i := by
  cases i <;> simp [isPortOperation, writtenBy] at hi ⊢

/-- Settles O37: a memory operation writes MEM and `fault` only, and no port operation is listed for MEM. -/
theorem memoryOperationsArePassive : Obligations.MemoryOperationsArePassive := by
  refine fun i s t h => ⟨fun hi => ?_, fun hi =>
    effect_frame (exec_next h) (mem_notMem_writtenBy_of_portOperation hi)⟩
  have hkept (f : Field) (hf : f ∉ [.mem, .fault]) : f.agree s t :=
    effect_frame (exec_next h) (mt (fun hmem => writtenBy_subset_of_memoryOperation hi hmem) hf)
  exact ⟨hkept .shiftData (by decide), hkept .shiftAmount (by decide), hkept .prevSnd1 (by decide),
    hkept .prevSnd2 (by decide), hkept .phase (by decide), hkept .lastTime (by decide), hkept .quit (by decide),
    hkept .snap (by decide), hkept .lock (by decide)⟩

/-! ## What an operation does not read -/

section Congruence

variable {f : State → State} {s s' : State}

/-- Two operations agree up to `f` when their bodies do: `fault` alone decides whether they run. -/
theorem mapNext_unlessTerminated_congr {body body' : Answer} (hfault : s'.fault = s.fault)
    (hbody : mapNext f body' = mapNext f body) :
    mapNext f (unlessTerminated s' body') = mapNext f (unlessTerminated s body) := by
  rw [unlessTerminated, unlessTerminated, hfault]
  cases s.fault
  · exact hbody
  · rfl

theorem mapNext_ite_congr {c : Prop} [Decidable c] {a a' b b' : Answer} (ha : mapNext f a' = mapNext f a)
    (hb : mapNext f b' = mapNext f b) : mapNext f (if c then a' else b') = mapNext f (if c then a else b) := by
  rw [apply_ite (mapNext f), ha, hb, apply_ite (mapNext f)]

end Congruence

/-- Settles O48: SNAP is read nowhere but in GETFRAME, and the end-of-screen TICK writes all of it. -/
theorem onlyGetframeReadsTheSnapshot : Obligations.OnlyGetframeReadsTheSnapshot := by
  intro i s m hgetframe
  cases i with
  | getframe pitch fb => exact absurd rfl (hgetframe pitch fb)
  | tick x =>
    refine mapNext_unlessTerminated_congr rfl ?_
    rw [show tickArm x { s with snap := m } = tickArm x s from rfl]
    cases tickArm x s with
    | endOfScreen =>
      by_cases hfree : s.lock = .free
      · rw [acquire_free hfree, acquire_free (s := { s with snap := m }) hfree]
        rfl
      · rw [acquire_held hfree, acquire_held (s := { s with snap := m }) hfree]
        rfl
    | quit | unchanged | mid => rfl
  | reset => exact mapNext_ite_congr rfl rfl
  | inUnmapped | outUnmapped | memrd | memwr | load =>
    exact mapNext_unlessTerminated_congr rfl (mapNext_ite_congr rfl rfl)
  | inInp0 | inInp1 | inInp2 | inInpNext | inShres | inWdog | outShamt | outSnd1 | outShdata | outSnd2 | outWdog |
    snapshot | setquit => exact mapNext_unlessTerminated_congr rfl rfl

/-- `t` with its first `n` events replaced by `l`. -/
def State.rebaseTrace (l : List Event) (n : Nat) (t : State) : State := { t with trace := l ++ t.trace.drop n }

theorem next_rebaseTrace_of_same {s t t' : State} {l : List Event} (h : t.trace = s.trace)
    (ht : t' = { t with trace := l }) :
    (.next t' : Answer) = mapNext (State.rebaseTrace l s.trace.length) (.next t) := by
  simp [mapNext, State.rebaseTrace, h, ht]

theorem next_rebaseTrace_of_emitted {s t t' : State} {l : List Event} {e : Event} (h : t.trace = s.trace ++ [e])
    (ht : t' = { t with trace := l ++ [e] }) :
    (.next t' : Answer) = mapNext (State.rebaseTrace l s.trace.length) (.next t) := by
  simp [mapNext, State.rebaseTrace, h, ht]

/-- No operation but RESET reads the trace: on another one it appends the same events. -/
theorem exec_rebaseTrace {i : Instr} (hreset : i ≠ .reset) (s : State) (l : List Event) :
    exec i { s with trace := l } = mapNext (State.rebaseTrace l s.trace.length) (exec i s) := by
  cases i with
  | reset => exact absurd rfl hreset
  | tick x =>
    refine mapNext_unlessTerminated rfl ?_
    rw [show tickArm x { s with trace := l } = tickArm x s from rfl]
    cases tickArm x s with
    | quit => exact next_rebaseTrace_of_emitted rfl rfl
    | unchanged => exact next_rebaseTrace_of_same rfl rfl
    | mid => exact next_rebaseTrace_of_emitted rfl rfl
    | endOfScreen =>
      by_cases hfree : s.lock = .free
      · rw [acquire_free hfree, acquire_free (s := { s with trace := l }) hfree]
        exact next_rebaseTrace_of_emitted rfl rfl
      · rw [acquire_held hfree, acquire_held (s := { s with trace := l }) hfree]
        exact next_rebaseTrace_of_same rfl rfl
  | getframe pitch fb =>
    refine mapNext_unlessTerminated rfl (mapNext_ite ?_ rfl)
    by_cases hfree : s.lock = .free
    · rw [acquire_free hfree, acquire_free (s := { s with trace := l }) hfree]
      exact next_rebaseTrace_of_emitted rfl rfl
    · rw [acquire_held hfree, acquire_held (s := { s with trace := l }) hfree]
      exact next_rebaseTrace_of_same rfl rfl
  | inUnmapped | outUnmapped | memrd | memwr | load =>
    exact mapNext_unlessTerminated rfl (mapNext_ite (next_rebaseTrace_of_same rfl rfl)
      (next_rebaseTrace_of_same rfl rfl))
  | outSnd1 | outSnd2 =>
    exact mapNext_unlessTerminated rfl (next_rebaseTrace_of_emitted rfl rfl)
  | inInp0 | inInp1 | inInp2 | inInpNext | inShres | inWdog | outShamt | outShdata | outWdog | snapshot | setquit =>
    exact mapNext_unlessTerminated rfl (next_rebaseTrace_of_same rfl rfl)

/-- Settles O49: no operation reads the trace, and what one does to it is to append. -/
theorem traceIsAppendOnlyAndNeverRead : Obligations.TraceIsAppendOnlyAndNeverRead := by
  refine fun i s l hreset => ⟨exec_rebaseTrace hreset s l, fun t h => ?_⟩
  rcases effect_cadence (exec_next h) hreset with ⟨-, es, htrace, -⟩ | ⟨-, htrace, -⟩
  · exact ⟨es, htrace.symm⟩
  · exact ⟨_, htrace.symm⟩

end Sys2Proof.Machine

/-!
The picture (44_video_decompress.md R192 to R200): the two coordinate maps, the cells of the picture, the walker, and the
statements about them.
-/
namespace Sys2Proof.Machine

/-! ## The coordinate maps -/

theorem columnOf_involutive (o : ColOrder) {x : Nat} (hx : x < 224) : columnOf o (columnOf o x) = x := by
  cases o
  · rfl
  · simp only [columnOf, imgW]
    omega

theorem columnOf_lt (o : ColOrder) {x : Nat} (hx : x < 224) : columnOf o x < 224 := by
  cases o
  · exact hx
  · simp only [columnOf, imgW]
    omega

theorem bitOf_involutive (o : BitOrder) {b : Nat} (hb : b < 8) : bitOf o (bitOf o b) = b := by
  cases o
  · rfl
  · simp only [bitOf]
    omega

theorem bitOf_lt (o : BitOrder) {b : Nat} (hb : b < 8) : bitOf o b < 8 := by
  cases o
  · exact hb
  · simp only [bitOf]
    omega

section BitToPixel

variable (c : Config) {i b : Nat}

theorem pixelX_lt (hi : i < 7168) : pixelX c i < 224 := columnOf_lt _ (by simp only [colBytes]; omega)

theorem pixelY_lt : pixelY c i b < 256 := by
  simp only [pixelY, imgH]
  omega

variable (hb : b < 8)
include hb

/-- How far the pixel's row is from the bottom one. -/
theorem height_pixelY : 255 - pixelY c i b = 8 * (i % 32) + bitOf c.bitOrder b := by
  have := bitOf_lt c.bitOrder hb
  simp only [pixelY, imgH, colBytes]
  omega

theorem sourceByte_pixel (hi : i < 7168) : sourceByte c (pixelX c i) (pixelY c i b) = i := by
  have := bitOf_lt c.bitOrder hb
  simp only [sourceByte, pixelX, columnOf_involutive c.colOrder (show i / colBytes < 224 by simp only [colBytes]; omega),
    show imgH - 1 = 255 from rfl, height_pixelY c hb, colBytes]
  omega

theorem sourceBit_pixel : sourceBit c (pixelY c i b) = b := by
  have hlt := bitOf_lt c.bitOrder hb
  have hmod : (8 * (i % 32) + bitOf c.bitOrder b) % 8 = bitOf c.bitOrder b := by omega
  rw [sourceBit, show imgH - 1 = 255 from rfl, height_pixelY c hb, hmod, bitOf_involutive _ hb]

end BitToPixel

section PixelToBit

variable (c : Config) {x y : Nat}

theorem sourceByte_lt (hx : x < 224) : sourceByte c x y < 7168 := by
  have := columnOf_lt c.colOrder hx
  simp only [sourceByte, colBytes, imgH]
  omega

theorem sourceBit_lt : sourceBit c y < 8 := bitOf_lt _ (Nat.mod_lt _ (by decide))

theorem pixelX_source (hx : x < 224) : pixelX c (sourceByte c x y) = x := by
  have hcol : sourceByte c x y / colBytes = columnOf c.colOrder x := by
    simp only [sourceByte, colBytes, imgH]
    omega
  rw [pixelX, hcol, columnOf_involutive _ hx]

theorem pixelY_source (hy : y < 256) : pixelY c (sourceByte c x y) (sourceBit c y) = y := by
  have hbit : bitOf c.bitOrder (sourceBit c y) = (255 - y) % 8 := bitOf_involutive _ (Nat.mod_lt _ (by decide))
  simp only [pixelY, hbit, sourceByte, colBytes, imgH]
  omega

end PixelToBit

/-- Settles O41: each order is its own inverse, and a height of the picture is a byte of the column and a bit of it. -/
theorem pixelMapsAreInverse : Obligations.PixelMapsAreInverse := fun c =>
  ⟨fun _ _ hi hb => ⟨pixelX_lt c hi, pixelY_lt c, sourceByte_pixel c hb hi, sourceBit_pixel c hb⟩,
    fun _ _ hx hy => ⟨sourceByte_lt c hx, sourceBit_lt c, pixelX_source c hx, pixelY_source c hy⟩⟩

/-! ## The cells of the picture -/

theorem cellIndex_lt {x y : Nat} (pitch : Nat) (hx : x < 224) (hy : y < 256) :
    cellIndex pitch x y < 255 * pitch + 224 := by
  have hrows : y * pitch ≤ 255 * pitch := Nat.mul_le_mul_right _ (by omega)
  rw [cellIndex]
  omega

section Cells

variable {pitch x y : Nat} (hpitch : 224 ≤ pitch) (hx : x < 224)
include hpitch hx

theorem cellIndex_mod : cellIndex pitch x y % pitch = x := by
  rw [cellIndex, Nat.mul_comm, Nat.mul_add_mod, Nat.mod_eq_of_lt (by omega)]

theorem cellIndex_div : cellIndex pitch x y / pitch = y := by
  rw [cellIndex, Nat.mul_comm, Nat.mul_add_div (by omega), Nat.div_eq_of_lt (by omega), Nat.add_zero]

/-- The cell of a pixel holds its value. -/
theorem getElem?_decompress_cell (c : Config) (tmp : Memory) {fb : List Byte} (hfb : 255 * pitch + 224 ≤ fb.length)
    (hy : y < 256) : (decompress c tmp pitch fb)[cellIndex pitch x y]? = some (pixelAt c tmp x y) := by
  have hlt : cellIndex pitch x y < fb.length := Nat.lt_of_lt_of_le (cellIndex_lt pitch hx hy) hfb
  rw [getElem?_decompress, List.getElem?_eq_getElem hlt, Option.map_some, cellIndex_mod hpitch hx,
    cellIndex_div hpitch hx, if_pos ⟨hx, hy⟩]

end Cells

/-- Settles O39: the pixel of bit `b` of byte `i` has that bit as its source. -/
theorem decompressPlacesEveryBit : Obligations.DecompressPlacesEveryBit := by
  intro c tmp pitch fb i b hpitch hfb hi hb X Y
  have hX : X = pixelX c i := by cases hcol : c.colOrder <;> simp [X, pixelX, columnOf, hcol, imgW, colBytes]
  have hY : Y = pixelY c i b := by cases hbit : c.bitOrder <;> simp [Y, pixelY, bitOf, hbit, imgH, colBytes]
  have hcell := getElem?_decompress_cell hpitch (pixelX_lt c hi) c tmp hfb (pixelY_lt c (i := i) (b := b))
  rw [pixelAt, sourceByte_pixel c hb hi, sourceBit_pixel c hb] at hcell
  rw [hX, hY]
  exact hcell

/-- Settles O40: a cell left of the padding and in one of the 256 rows lies before the end of the last pixel's row. -/
theorem decompressKeepsOtherCells : Obligations.DecompressKeepsOtherCells := by
  refine fun c tmp pitch fb hpitch => ⟨length_decompress c tmp pitch fb, fun k hk => ?_⟩
  have hno : ¬(k % pitch < 224 ∧ k / pitch < 256) := by
    rintro ⟨hcol, hrow⟩
    have hle : pitch * (k / pitch) ≤ pitch * 255 := Nat.mul_le_mul_left _ (by omega)
    have hsplit : pitch * (k / pitch) + k % pitch = k := Nat.div_add_mod k pitch
    omega
  simp [getElem?_decompress, hno]

theorem getLsbD_singleBit {b b' : Nat} (hb' : b' < 8) :
    (BitVec.ofNat 8 (2 ^ b)).getLsbD b' = decide (b' = b) := by
  rw [BitVec.getLsbD_ofNat, Nat.testBit_two_pow, decide_eq_true hb', Bool.true_and]
  exact decide_eq_decide.2 eq_comm

/-- Settles O43: the lit pixel is the one whose source is the bit, and a pixel has one source. -/
theorem oneBitLightsOnePixel : Obligations.OneBitLightsOnePixel := by
  intro i b x y pitch fb hi hb hx hy hpitch hfb
  have hsource : (sourceByte Config.standard x y = i ∧ sourceBit Config.standard y = b) ↔
      (x = i / 32 ∧ y = 255 - 8 * (i % 32) - b) := by
    simp only [sourceByte, sourceBit, Config.standard, columnOf, bitOf, colBytes, imgH]
    omega
  have hbit : (Memory.read [(i, BitVec.ofNat 8 (2 ^ b))] (sourceByte Config.standard x y)).getLsbD
      (sourceBit Config.standard y) = decide (sourceByte Config.standard x y = i ∧ sourceBit Config.standard y = b) := by
    rw [Memory.read_cons]
    by_cases hbyte : i = sourceByte Config.standard x y
    · rw [if_pos hbyte, getLsbD_singleBit (sourceBit_lt _)]
      simp [hbyte]
    · rw [if_neg hbyte]
      simp [Ne.symm hbyte, Memory.background]
  refine (getElem?_decompress_cell hpitch hx Config.standard _ hfb hy).trans ?_
  simp only [pixelAt, hbit, pixelValue, decide_eq_true_eq, hsource]
  rfl

/-! ## The walker -/

/-- The place of pixel (x, y) in the walker's order: column by column of the snapshot, bottom to top (R196). -/
def walkIndex (c : Config) (x y : Nat) : Nat := 256 * columnOf c.colOrder x + (255 - y)

/-- The picture as the walker has drawn it after `n` passes: the first `n` pixels of its order. -/
def partialPicture (c : Config) (tmp : Memory) (pitch : Nat) (fb : List Byte) (n : Nat) : List Byte :=
  fb.mapIdx fun k old =>
    if (k % pitch < 224 ∧ k / pitch < 256) ∧ walkIndex c (k % pitch) (k / pitch) < n then
      pixelAt c tmp (k % pitch) (k / pitch)
    else old

/-- The walker after `n` passes. -/
def walkerAt (c : Config) (tmp : Memory) (pitch : Nat) (fb : List Byte) (n : Nat) : Walker :=
  { src := n / 8, bit := n % 8, col := n / 256, row := 255 - n % 256, fb := partialPicture c tmp pitch fb n }

theorem walkIndex_lt (c : Config) {x y : Nat} (hx : x < 224) : walkIndex c x y < 57344 := by
  have := columnOf_lt c.colOrder hx
  simp only [walkIndex]
  omega

/-- The pixel of the `n`-th pass, and no other pixel, has walker index `n`. -/
theorem walkIndex_eq_iff (c : Config) {x y n : Nat} (hx : x < 224) (hy : y < 256) (hn : n < 57344) :
    walkIndex c x y = n ↔ x = columnOf c.colOrder (n / 256) ∧ y = 255 - n % 256 := by
  have hcol : columnOf c.colOrder x = n / 256 ↔ x = columnOf c.colOrder (n / 256) := by
    refine ⟨fun h => ?_, fun h => ?_⟩
    · rw [← h, columnOf_involutive _ hx]
    · rw [h, columnOf_involutive _ (by omega)]
  rw [← hcol]
  simp only [walkIndex]
  omega

section Walk

variable (c : Config) (tmp : Memory) {pitch : Nat} (fb : List Byte)

theorem partialPicture_zero : partialPicture c tmp pitch fb 0 = fb := by
  apply List.ext_getElem?
  intro k
  simp [partialPicture]

theorem partialPicture_all : partialPicture c tmp pitch fb 57344 = decompress c tmp pitch fb := by
  apply List.ext_getElem?
  intro k
  rw [getElem?_decompress, partialPicture, List.getElem?_mapIdx]
  congr 1
  funext old
  by_cases hpixel : k % pitch < 224 ∧ k / pitch < 256
  · simp [hpixel, walkIndex_lt c hpixel.1]
  · simp [hpixel]

/-- What the `n`-th pass writes is the value of its pixel. -/
theorem pixelAt_walk {n : Nat} (hn : n < 57344) :
    pixelAt c tmp (columnOf c.colOrder (n / 256)) (255 - n % 256) =
      pixelValue c ((tmp.read (n / 8)).getLsbD (bitOf c.bitOrder (n % 8))) := by
  have hbyte : sourceByte c (columnOf c.colOrder (n / 256)) (255 - n % 256) = n / 8 := by
    rw [sourceByte, columnOf_involutive _ (by omega)]
    simp only [colBytes, imgH]
    omega
  have hbit : (imgH - 1 - (255 - n % 256)) % 8 = n % 8 := by
    simp only [imgH]
    omega
  rw [pixelAt, hbyte, sourceBit, hbit]

variable (hpitch : 224 ≤ pitch)
include hpitch

theorem partialPicture_succ {n : Nat} (hn : n < 57344) :
    partialPicture c tmp pitch fb (n + 1) =
      (partialPicture c tmp pitch fb n).set (cellIndex pitch (columnOf c.colOrder (n / 256)) (255 - n % 256))
        (pixelValue c ((tmp.read (n / 8)).getLsbD (bitOf c.bitOrder (n % 8)))) := by
  have hcol : columnOf c.colOrder (n / 256) < 224 := columnOf_lt _ (by omega)
  apply List.ext_getElem?
  intro k
  rw [List.getElem?_set, partialPicture, partialPicture, List.getElem?_mapIdx, List.length_mapIdx]
  by_cases hcell : cellIndex pitch (columnOf c.colOrder (n / 256)) (255 - n % 256) = k
  · have hmod : k % pitch = columnOf c.colOrder (n / 256) := hcell ▸ cellIndex_mod hpitch hcol
    have hdiv : k / pitch = 255 - n % 256 := hcell ▸ cellIndex_div hpitch hcol
    have hindex : walkIndex c (k % pitch) (k / pitch) = n :=
      (walkIndex_eq_iff c (by omega) (by omega) hn).2 ⟨hmod, hdiv⟩
    have hpixel : ((k % pitch < 224 ∧ k / pitch < 256) ∧ walkIndex c (k % pitch) (k / pitch) < n + 1) := by omega
    rw [if_pos hcell, hcell]
    by_cases hk : k < fb.length
    · rw [if_pos hk, List.getElem?_eq_getElem hk, Option.map_some, if_pos hpixel, hmod, hdiv, pixelAt_walk c tmp hn]
    · rw [if_neg hk, List.getElem?_eq_none (Nat.not_lt.1 hk), Option.map_none]
  · have hother (h : k % pitch < 224 ∧ k / pitch < 256) : walkIndex c (k % pitch) (k / pitch) ≠ n := by
      intro hindex
      obtain ⟨hmod, hdiv⟩ := (walkIndex_eq_iff c h.1 h.2 hn).1 hindex
      exact hcell (by rw [← hmod, ← hdiv, cellIndex, Nat.div_add_mod'])
    rw [if_neg hcell, List.getElem?_mapIdx]
    congr 1
    funext old
    refine if_congr (and_congr_right fun h => ?_) rfl rfl
    have := hother h
    omega

theorem walkerAt_succ {n : Nat} (hn : n < 57344) :
    (walkerAt c tmp pitch fb n).advance c tmp pitch = walkerAt c tmp pitch fb (n + 1) := by
  have hsrc : (if n % 8 + 1 = 8 then n / 8 + 1 else n / 8) = (n + 1) / 8 := by split <;> omega
  have hbit : (if n % 8 + 1 = 8 then 0 else n % 8 + 1) = (n + 1) % 8 := by split <;> omega
  have hcol : (if 255 - n % 256 = 0 then n / 256 + 1 else n / 256) = (n + 1) / 256 := by split <;> omega
  have hrow : (if 255 - n % 256 = 0 then 255 else 255 - n % 256 - 1) = 255 - (n + 1) % 256 := by split <;> omega
  simp only [Walker.advance, walkerAt, partialPicture_succ c tmp fb hpitch hn, Walker.mk.injEq]
  exact ⟨hsrc, hbit, hcol, hrow, trivial⟩

/-- With fuel enough the loop ends after the last pass. -/
theorem run_walkerAt {n fuel : Nat} (hn : n ≤ 57344) (hfuel : 57344 ≤ n + fuel) :
    Walker.run c tmp pitch fuel (walkerAt c tmp pitch fb n) = walkerAt c tmp pitch fb 57344 := by
  induction fuel generalizing n with
  | zero => rw [Walker.run, Nat.le_antisymm hn hfuel]
  | succ fuel ih =>
    have hsrc : (walkerAt c tmp pitch fb n).src < vramLen ↔ n < 57344 := by
      simp only [walkerAt, vramLen]
      omega
    rw [Walker.run]
    split
    · next hlt =>
      have hlt := hsrc.1 hlt
      rw [walkerAt_succ c tmp fb hpitch hlt, ih (by omega) (by omega)]
    · next hdone => rw [Nat.le_antisymm hn (Nat.not_lt.1 (mt hsrc.2 hdone))]

end Walk

/-- Settles O42: after `n` passes the walker stands at pixel `n` of its order and has drawn the pixels before it. -/
theorem walkerComputesTheMap : Obligations.WalkerComputesTheMap := by
  intro c tmp pitch fb fuel hpitch hfb hfuel
  have hstart : walkerStart fb = walkerAt c tmp pitch fb 0 := by
    rw [walkerAt, partialPicture_zero]
    rfl
  rw [hstart, run_walkerAt c tmp fb hpitch (Nat.zero_le _) (by omega), walkerAt, partialPicture_all]

end Sys2Proof.Machine

/-!
The fine-grained form (20_memory.md R61 to R64): what a move can do, said once per kind of move, the invariant stage by stage,
the two copies run to their end, and the statements about them.
-/
namespace Sys2Proof.Machine

/-! ## Moves -/

theorem completed_eq_some {x : Answer} {t : State} (h : completed x = some t) : x = .next t := by
  cases x with
  | next u =>
    simp only [completed] at h
    split at h
    · cases h
    · rw [Option.some.inj h]
  | fault f => cases h
  | refused r => cases h

section Inversions

variable {c c' : Contexts} {i : Instr}

/-- The CPU side begins a TICK on its end-of-screen arm, or completes an operation that leaves SNAP alone. -/
theorem cpuIssue_cases (h : c.cpuIssue i = some c') :
    c.cpu = .idle ∧ agentMay .cpuSide i = true ∧
    ((∃ t, c' = { c with block := c.block.beginEndOfScreen t, cpu := .acquiring }) ∨
      ∃ b, Effect c.block b i ∧ b.snap = c.block.snap ∧ c' = { c with block := b }) := by
  have hatomic (hreset : i ≠ .reset)
      (hscreen : ∀ x, i = .tick x → ¬(c.block.fault = none ∧ tickArm x c.block = .endOfScreen))
      (h : ((completed (exec i c.block)).map fun b => { c with block := b }) = some c') :
      ∃ b, Effect c.block b i ∧ b.snap = c.block.snap ∧ c' = { c with block := b } := by
    obtain ⟨b, hb, rfl⟩ := Option.map_eq_some_iff.1 h
    have heffect : Effect c.block b i := exec_next (completed_eq_some hb)
    refine ⟨b, heffect, ?_, rfl⟩
    rcases effect_snap heffect with hsnap | ⟨x, hx, harm, -⟩ | ⟨hi, -⟩
    · exact hsnap
    · exact absurd ⟨effect_running heffect hreset, harm⟩ (hscreen x hx)
    · exact absurd hi hreset
  unfold Contexts.cpuIssue at h
  split at h
  · next hmay =>
    obtain ⟨hcpu, hmay⟩ := hmay
    have hreset : i ≠ .reset := by
      rintro rfl
      cases hmay
    refine ⟨hcpu, hmay, ?_⟩
    split at h
    · next t =>
      split at h
      · exact .inl ⟨t, (Option.some.inj h).symm⟩
      · next hscreen =>
        refine .inr (hatomic hreset ?_ h)
        rintro x ⟨⟩
        exact hscreen
    · next hnot => exact .inr (hatomic hreset (fun x hx => absurd hx (hnot x)) h)
  · cases h

/-- The CPU side goes on from one stage of the end-of-screen arm to the next. -/
theorem cpuAdvance_cases (h : c.cpuAdvance = some c') :
    (c.cpu = .acquiring ∧ c.block.lock = .free ∧
      c' = { c with block := { c.block with lock := .producer }, cpu := .copyIn 0 }) ∨
    (∃ k, c.cpu = .copyIn k ∧ k < vramLen ∧ c' = { c with
      block := { c.block with snap := c.block.snap.write k (c.block.mem.read (c.block.cfg.vramBase + k)) }
      cpu := .copyIn (k + 1) }) ∨
    (∃ k, c.cpu = .copyIn k ∧ c' = { c with block := c.block.release, cpu := .reporting }) ∨
    (c.cpu = .reporting ∧ c' = { c with block := c.block.reportVBlank, cpu := .idle }) := by
  unfold Contexts.cpuAdvance at h
  split at h
  · split at h
    · cases h
    · next hcpu =>
      obtain ⟨b, hb, rfl⟩ := Option.map_eq_some_iff.1 h
      obtain ⟨hfree, rfl⟩ := acquire_eq_some.1 hb
      exact .inl ⟨hcpu, hfree, rfl⟩
    · next k hcpu =>
      split at h
      · next hk => exact .inr (.inl ⟨k, hcpu, hk, (Option.some.inj h).symm⟩)
      · exact .inr (.inr (.inl ⟨k, hcpu, (Option.some.inj h).symm⟩))
    · next hcpu => exact .inr (.inr (.inr ⟨hcpu, (Option.some.inj h).symm⟩))
  · cases h

/-- The consumer begins a GETFRAME with the lock free, or sets the quit signal. -/
theorem consumerIssue_cases (h : c.consumerIssue i = some c') :
    c.consumer = .idle ∧
    ((∃ pitch fb, c.block.lock = .free ∧
      c' = { c with block := { c.block with lock := .consumer }, consumer := .copyOut pitch fb [] 0 }) ∨
      c' = { c with block := { c.block with quit := true }.respond .done }) := by
  unfold Contexts.consumerIssue at h
  split at h
  · next hmay =>
    obtain ⟨hidle, hmay⟩ := hmay
    refine ⟨hidle, ?_⟩
    split at h
    · next pitch fb =>
      split at h
      · obtain ⟨b, hb, rfl⟩ := Option.map_eq_some_iff.1 h
        obtain ⟨hfree, rfl⟩ := acquire_eq_some.1 hb
        exact .inl ⟨pitch, fb, hfree, rfl⟩
      · cases h
    · next hnot =>
      have hi : i = .setquit := by cases i <;> simp [agentMay] at hmay hnot ⊢
      subst hi
      obtain ⟨b, hb, rfl⟩ := Option.map_eq_some_iff.1 h
      obtain ⟨-, rfl⟩ := exec_next (completed_eq_some hb)
      exact .inr rfl
  · cases h

/-- The consumer goes on from one stage of GETFRAME to the next. -/
theorem consumerAdvance_cases (h : c.consumerAdvance = some c') :
    (∃ pitch fb tmp k, c.consumer = .copyOut pitch fb tmp k ∧ k < vramLen ∧
      c' = { c with consumer := .copyOut pitch fb (tmp.write k (c.block.snap.read k)) (k + 1) }) ∨
    (∃ pitch fb tmp k, c.consumer = .copyOut pitch fb tmp k ∧
      c' = { c with block := c.block.release, consumer := .drawing pitch fb tmp }) ∨
    (∃ pitch fb tmp, c.consumer = .drawing pitch fb tmp ∧
      c' = { c with block := c.block.deliverFrame tmp pitch fb, consumer := .idle }) := by
  unfold Contexts.consumerAdvance at h
  split at h
  · split at h
    · cases h
    · next pitch fb tmp k hconsumer =>
      split at h
      · next hk => exact .inl ⟨pitch, fb, tmp, k, hconsumer, hk, (Option.some.inj h).symm⟩
      · exact .inr (.inl ⟨pitch, fb, tmp, k, hconsumer, (Option.some.inj h).symm⟩)
    · next pitch fb tmp hconsumer => exact .inr (.inr ⟨pitch, fb, tmp, hconsumer, (Option.some.inj h).symm⟩)
  · cases h

end Inversions

/-! ## The invariant, stage by stage -/

/-- What the CPU side's stage asks of the block: a copy under way has copied the window as it stands. -/
def CpuStage.CopyOk (b : State) : CpuStage → Prop
  | .copyIn k => k ≤ vramLen ∧ ∀ j, j < k → b.snap.read j = b.mem.read (b.cfg.vramBase + j)
  | .idle | .acquiring | .reporting => True

/-- What the consumer's stage asks of the snapshot: a copy under way is canonical and has copied it as it stands. -/
def ConsumerStage.CopyOk (snap : Memory) : ConsumerStage → Prop
  | .copyOut _ _ tmp k => k ≤ vramLen ∧ (∀ j, j < k → tmp.read j = snap.read j) ∧ tmp.wf vramLen = true
  | .idle | .drawing _ _ _ => True

theorem CpuStage.copyOk_iff (b : State) (cpu : CpuStage) :
    cpu.CopyOk b ↔ ∀ k, cpu = .copyIn k →
      k ≤ vramLen ∧ ∀ j, j < k → b.snap.read j = b.mem.read (b.cfg.vramBase + j) := by
  cases cpu <;> simp [CpuStage.CopyOk]

theorem ConsumerStage.copyOk_iff (snap : Memory) (consumer : ConsumerStage) :
    consumer.CopyOk snap ↔
      (∀ pitch fb tmp k, consumer = .copyOut pitch fb tmp k →
        k ≤ vramLen ∧ ∀ j, j < k → tmp.read j = snap.read j) ∧
      ∀ pitch fb tmp k, consumer = .copyOut pitch fb tmp k → tmp.wf vramLen = true := by
  cases consumer with
  | copyOut pitch fb tmp k =>
    refine ⟨fun ⟨hk, hcopied, htmp⟩ => ⟨?_, ?_⟩, fun ⟨hcopied, htmp⟩ => ?_⟩
    · rintro _ _ _ _ ⟨⟩
      exact ⟨hk, hcopied⟩
    · rintro _ _ _ _ ⟨⟩
      exact htmp
    · obtain ⟨hk, hcopied⟩ := hcopied pitch fb tmp k rfl
      exact ⟨hk, hcopied, htmp pitch fb tmp k rfl⟩
  | idle | drawing => simp [ConsumerStage.CopyOk]

/-- The invariant of the fine-grained form, with what it says of a copy said of the stage. -/
theorem ok_iff {c : Contexts} :
    c.ok ↔ expectedOwner c.cpu c.consumer = some c.block.lock ∧ c.block.mem.wf memSize = true ∧
      c.block.snap.wf vramLen = true ∧ c.cpu.CopyOk c.block ∧ c.consumer.CopyOk c.block.snap := by
  rw [CpuStage.copyOk_iff, ConsumerStage.copyOk_iff]
  exact ⟨fun ⟨howner, ⟨hin, hout⟩, hmem, hsnap, htmp⟩ => ⟨howner, hmem, hsnap, hin, hout, htmp⟩,
    fun ⟨howner, hmem, hsnap, hin, hout, htmp⟩ => ⟨howner, ⟨hin, hout⟩, hmem, hsnap, htmp⟩⟩

theorem CpuStage.copyOk_of_not_holding {cpu : CpuStage} (h : cpu.holdsLock = false) (b : State) : cpu.CopyOk b := by
  cases cpu with
  | copyIn k => cases h
  | idle | acquiring | reporting => trivial

theorem ConsumerStage.copyOk_of_not_holding {consumer : ConsumerStage} (h : consumer.holdsLock = false)
    (snap : Memory) : consumer.CopyOk snap := by
  cases consumer with
  | copyOut => cases h
  | idle | drawing => trivial

section Owner

variable {cpu : CpuStage} {consumer : ConsumerStage} {owner : LockOwner}

theorem expectedOwner_free_iff :
    expectedOwner cpu consumer = some .free ↔ cpu.holdsLock = false ∧ consumer.holdsLock = false := by
  cases hcpu : cpu.holdsLock <;> cases hconsumer : consumer.holdsLock <;> simp [expectedOwner, hcpu, hconsumer]

theorem expectedOwner_of_cpu_holds (hcpu : cpu.holdsLock = true) :
    expectedOwner cpu consumer = some owner ↔ consumer.holdsLock = false ∧ owner = .producer := by
  cases hconsumer : consumer.holdsLock <;> simp [expectedOwner, hcpu, hconsumer, eq_comm]

theorem expectedOwner_of_consumer_holds (hconsumer : consumer.holdsLock = true) :
    expectedOwner cpu consumer = some owner ↔ cpu.holdsLock = false ∧ owner = .consumer := by
  cases hcpu : cpu.holdsLock <;> simp [expectedOwner, hcpu, hconsumer, eq_comm]

end Owner

/-! ## Every move keeps the invariant -/

section Keeps

variable {c c' : Contexts} (hok : c.ok)
include hok

theorem cpuIssue_keeps_ok {i : Instr} (h : c.cpuIssue i = some c') : c'.ok := by
  obtain ⟨hcpu, hmay, hcases⟩ := cpuIssue_cases h
  obtain ⟨howner, hmem, hsnap, -, hconsumer⟩ := ok_iff.1 hok
  rw [hcpu] at howner
  rcases hcases with ⟨t, rfl⟩ | ⟨b, heffect, hsame, rfl⟩
  · exact ok_iff.2 ⟨howner, hmem, hsnap, trivial, hconsumer⟩
  · have hlock : Field.lock ∉ writtenBy i := by cases i <;> simp [writtenBy, agentMay] at hmay ⊢
    rw [← show b.lock = c.block.lock from effect_frame heffect hlock, ← hcpu] at howner
    refine ok_iff.2 ⟨howner, effect_mem_wf heffect hmem, ?_, ?_, ?_⟩
    · rwa [hsame]
    · rw [hcpu]
      trivial
    · rwa [hsame]

theorem cpuAdvance_keeps_ok (h : c.cpuAdvance = some c') : c'.ok := by
  obtain ⟨howner, hmem, hsnap, hcopy, hconsumer⟩ := ok_iff.1 hok
  rcases cpuAdvance_cases h with ⟨hcpu, hfree, rfl⟩ | ⟨k, hcpu, hk, rfl⟩ | ⟨k, hcpu, rfl⟩ | ⟨hcpu, rfl⟩
  · rw [hfree, expectedOwner_free_iff] at howner
    refine ok_iff.2 ⟨(expectedOwner_of_cpu_holds rfl).2 ⟨howner.2, rfl⟩, hmem, hsnap, ⟨Nat.zero_le _, ?_⟩, hconsumer⟩
    exact fun j hj => absurd hj (Nat.not_lt_zero j)
  · rw [hcpu, expectedOwner_of_cpu_holds rfl] at howner
    rw [hcpu] at hcopy
    obtain ⟨-, hcopied⟩ := hcopy
    refine ok_iff.2 ⟨(expectedOwner_of_cpu_holds rfl).2 howner, hmem, Memory.wf_write hsnap hk _, ⟨hk, fun j hj => ?_⟩,
      ConsumerStage.copyOk_of_not_holding howner.1 _⟩
    rcases Nat.lt_succ_iff_lt_or_eq.1 hj with hj | rfl
    · exact (Memory.read_write_of_ne _ (Nat.ne_of_lt hj)).trans (hcopied j hj)
    · exact Memory.read_write_self hsnap j _
  · rw [hcpu, expectedOwner_of_cpu_holds rfl] at howner
    exact ok_iff.2 ⟨expectedOwner_free_iff.2 ⟨rfl, howner.1⟩, hmem, hsnap, trivial, hconsumer⟩
  · rw [hcpu] at howner
    exact ok_iff.2 ⟨howner, hmem, hsnap, trivial, hconsumer⟩

theorem consumerIssue_keeps_ok {i : Instr} (h : c.consumerIssue i = some c') : c'.ok := by
  obtain ⟨howner, hmem, hsnap, hcopy, hconsumer⟩ := ok_iff.1 hok
  obtain ⟨-, ⟨pitch, fb, hfree, rfl⟩ | rfl⟩ := consumerIssue_cases h
  · rw [hfree, expectedOwner_free_iff] at howner
    refine ok_iff.2 ⟨(expectedOwner_of_consumer_holds rfl).2 ⟨howner.1, rfl⟩, hmem, hsnap,
      CpuStage.copyOk_of_not_holding howner.1 _, Nat.zero_le _, ?_, Memory.wf_nil _⟩
    exact fun j hj => absurd hj (Nat.not_lt_zero j)
  · refine ok_iff.2 ⟨howner, hmem, hsnap, ?_, hconsumer⟩
    cases hcpu : c.cpu <;> rw [hcpu] at hcopy <;> exact hcopy

theorem consumerAdvance_keeps_ok (h : c.consumerAdvance = some c') : c'.ok := by
  obtain ⟨howner, hmem, hsnap, hcopy, hconsumer⟩ := ok_iff.1 hok
  rcases consumerAdvance_cases h with ⟨pitch, fb, tmp, k, hstage, hk, rfl⟩ | ⟨pitch, fb, tmp, k, hstage, rfl⟩ |
    ⟨pitch, fb, tmp, hstage, rfl⟩
  · rw [hstage, expectedOwner_of_consumer_holds rfl] at howner
    rw [hstage] at hconsumer
    obtain ⟨-, hcopied, htmp⟩ := hconsumer
    refine ok_iff.2 ⟨(expectedOwner_of_consumer_holds rfl).2 howner, hmem, hsnap, hcopy, hk, fun j hj => ?_,
      Memory.wf_write htmp hk _⟩
    rcases Nat.lt_succ_iff_lt_or_eq.1 hj with hj | rfl
    · exact (Memory.read_write_of_ne _ (Nat.ne_of_lt hj)).trans (hcopied j hj)
    · exact Memory.read_write_self htmp j _
  · rw [hstage, expectedOwner_of_consumer_holds rfl] at howner
    exact ok_iff.2 ⟨expectedOwner_free_iff.2 ⟨howner.1, rfl⟩, hmem, hsnap, CpuStage.copyOk_of_not_holding howner.1 _,
      trivial⟩
  · rw [hstage] at howner
    refine ok_iff.2 ⟨howner, hmem, hsnap, ?_, trivial⟩
    cases hcpu : c.cpu <;> rw [hcpu] at hcopy <;> exact hcopy

/-- Every move of either agent keeps the invariant. -/
theorem move_keeps_ok {m : Move} (h : c.move m = some c') : c'.ok := by
  cases m with
  | cpuIssue i => exact cpuIssue_keeps_ok hok h
  | cpuAdvance => exact cpuAdvance_keeps_ok hok h
  | consumerIssue i => exact consumerIssue_keeps_ok hok h
  | consumerAdvance => exact consumerAdvance_keeps_ok hok h

end Keeps

/-- Settles O55, by the four kinds of move. -/
theorem movesKeepTheLockDiscipline : Obligations.MovesKeepTheLockDiscipline := fun _ _ _ hok h => move_keeps_ok hok h

/-- Settles O56. MEM and the parameters are written by an operation of the CPU side only, which begins none while it copies;
SNAP is written by the copy-in only, which does not hold the lock while the consumer does. -/
theorem sourcesStandStillDuringACopy : Obligations.SourcesStandStillDuringACopy := by
  intro m c c' hok h
  cases m with
  | cpuIssue i =>
    obtain ⟨hidle, -, ⟨t, rfl⟩ | ⟨b, -, hsame, rfl⟩⟩ := cpuIssue_cases h
    · exact ⟨fun hbusy => absurd hidle hbusy, fun _ _ _ _ _ => rfl⟩
    · exact ⟨fun hbusy => absurd hidle hbusy, fun _ _ _ _ _ => hsame⟩
  | cpuAdvance =>
    rcases cpuAdvance_cases h with ⟨-, -, rfl⟩ | ⟨k, hcpu, -, rfl⟩ | ⟨k, -, rfl⟩ | ⟨-, rfl⟩
    case inr.inl =>
      refine ⟨fun _ => ⟨rfl, rfl⟩, fun pitch fb tmp j hstage => ?_⟩
      obtain ⟨howner, -⟩ := ok_iff.1 hok
      rw [hcpu, hstage] at howner
      cases howner
    all_goals exact ⟨fun _ => ⟨rfl, rfl⟩, fun _ _ _ _ _ => rfl⟩
  | consumerIssue i =>
    obtain ⟨-, ⟨pitch, fb, -, rfl⟩ | rfl⟩ := consumerIssue_cases h
    all_goals exact ⟨fun _ => ⟨rfl, rfl⟩, fun _ _ _ _ _ => rfl⟩
  | consumerAdvance =>
    rcases consumerAdvance_cases h with ⟨-, -, -, -, -, -, rfl⟩ | ⟨-, -, -, -, -, rfl⟩ | ⟨-, -, -, -, rfl⟩
    all_goals exact ⟨fun _ => ⟨rfl, rfl⟩, fun _ _ _ _ _ => rfl⟩

/-! ## A copy run to its end -/

theorem moves_append (ms ns : List Move) (c : Contexts) : c.moves (ms ++ ns) = (c.moves ms).bind (Contexts.moves ns) := by
  induction ms generalizing c with
  | nil => rfl
  | cons m ms ih =>
    rw [List.cons_append, Contexts.moves, Contexts.moves]
    cases c.move m with
    | none => rfl
    | some d => exact ih d

theorem moves_cons_of_move {c d : Contexts} {m : Move} (h : c.move m = some d) (ms : List Move) :
    c.moves (m :: ms) = d.moves ms := by
  rw [Contexts.moves, h, Option.bind_some]

theorem moves_append_of_moves {c d : Contexts} {ms : List Move} (h : c.moves ms = some d) (ns : List Move) :
    c.moves (ms ++ ns) = d.moves ns := by
  rw [moves_append, h, Option.bind_some]

section Copies

variable {c : Contexts} (hrun : c.block.fault = none)
include hrun

theorem move_cpuAdvance_acquires (hcpu : c.cpu = .acquiring) (hfree : c.block.lock = .free) :
    c.move .cpuAdvance = some { c with block := { c.block with lock := .producer }, cpu := .copyIn 0 } := by
  simp [Contexts.move, Contexts.cpuAdvance, hrun, hcpu, hfree]

theorem move_cpuAdvance_copies {k : Nat} (hcpu : c.cpu = .copyIn k) (hk : k < vramLen) :
    c.move .cpuAdvance = some { c with
      block := { c.block with snap := c.block.snap.write k (c.block.mem.read (c.block.cfg.vramBase + k)) }
      cpu := .copyIn (k + 1) } := by
  simp [Contexts.move, Contexts.cpuAdvance, hrun, hcpu, hk]

theorem move_cpuAdvance_releases (hcpu : c.cpu = .copyIn vramLen) :
    c.move .cpuAdvance = some { c with block := c.block.release, cpu := .reporting } := by
  simp [Contexts.move, Contexts.cpuAdvance, hrun, hcpu]

theorem move_cpuAdvance_reports (hcpu : c.cpu = .reporting) :
    c.move .cpuAdvance = some { c with block := c.block.reportVBlank, cpu := .idle } := by
  simp [Contexts.move, Contexts.cpuAdvance, hrun, hcpu]

theorem moves_release_and_report (hcpu : c.cpu = .copyIn vramLen) :
    c.moves (List.replicate 2 .cpuAdvance) = some { c with block := c.block.finishEndOfScreen, cpu := .idle } :=
  (moves_cons_of_move (move_cpuAdvance_releases hrun hcpu) _).trans
    (moves_cons_of_move (move_cpuAdvance_reports (c := { c with block := c.block.release, cpu := .reporting }) hrun rfl) [])

variable {pitch : Nat} {fb : List Byte} {tmp : Memory}

theorem move_consumerAdvance_copies {k : Nat} (hstage : c.consumer = .copyOut pitch fb tmp k) (hk : k < vramLen) :
    c.move .consumerAdvance =
      some { c with consumer := .copyOut pitch fb (tmp.write k (c.block.snap.read k)) (k + 1) } := by
  simp [Contexts.move, Contexts.consumerAdvance, hrun, hstage, hk]

theorem move_consumerAdvance_releases (hstage : c.consumer = .copyOut pitch fb tmp vramLen) :
    c.move .consumerAdvance = some { c with block := c.block.release, consumer := .drawing pitch fb tmp } := by
  simp [Contexts.move, Contexts.consumerAdvance, hrun, hstage]

theorem move_consumerAdvance_draws (hstage : c.consumer = .drawing pitch fb tmp) :
    c.move .consumerAdvance = some { c with block := c.block.deliverFrame tmp pitch fb, consumer := .idle } := by
  simp [Contexts.move, Contexts.consumerAdvance, hrun, hstage]

theorem moves_release_and_draw (hstage : c.consumer = .copyOut pitch fb tmp vramLen) :
    c.moves (List.replicate 2 .consumerAdvance) =
      some { c with block := c.block.release.deliverFrame tmp pitch fb, consumer := .idle } :=
  (moves_cons_of_move (move_consumerAdvance_releases hrun hstage) _).trans
    (moves_cons_of_move (move_consumerAdvance_draws
      (c := { c with block := c.block.release, consumer := .drawing pitch fb tmp }) hrun rfl) [])

end Copies

/-- `n` moves of the copy-in write SNAP and nothing else. -/
theorem moves_copyIn {c : Contexts} {k n : Nat} (hok : c.ok) (hrun : c.block.fault = none) (hcpu : c.cpu = .copyIn k)
    (hn : k + n ≤ vramLen) :
    ∃ m d, d = { c with block := { c.block with snap := m }, cpu := .copyIn (k + n) } ∧ d.ok ∧
      c.moves (List.replicate n .cpuAdvance) = some d := by
  induction n generalizing c k with
  | zero => exact ⟨c.block.snap, c, by rw [Nat.add_zero, ← hcpu], hok, rfl⟩
  | succ n ih =>
    have hmove := move_cpuAdvance_copies hrun hcpu (by omega)
    obtain ⟨m, d, hd, hdok, hmoves⟩ := ih (move_keeps_ok hok hmove) hrun rfl (by omega)
    refine ⟨m, d, ?_, hdok, ?_⟩
    · rw [hd, show k + 1 + n = k + (n + 1) by omega]
    · rw [List.replicate_succ, moves_cons_of_move hmove, hmoves]

/-- `n` moves of the copy-out write the private copy and nothing else. -/
theorem moves_copyOut {c : Contexts} {pitch : Nat} {fb : List Byte} {tmp : Memory} {k n : Nat} (hok : c.ok)
    (hrun : c.block.fault = none) (hstage : c.consumer = .copyOut pitch fb tmp k) (hn : k + n ≤ vramLen) :
    ∃ m d, d = { c with consumer := .copyOut pitch fb m (k + n) } ∧ d.ok ∧
      c.moves (List.replicate n .consumerAdvance) = some d := by
  induction n generalizing c tmp k with
  | zero => exact ⟨tmp, c, by rw [Nat.add_zero, ← hstage], hok, rfl⟩
  | succ n ih =>
    have hmove := move_consumerAdvance_copies hrun hstage (by omega)
    obtain ⟨m, d, hd, hdok, hmoves⟩ := ih (move_keeps_ok hok hmove) hrun rfl (by omega)
    refine ⟨m, d, ?_, hdok, ?_⟩
    · rw [hd, show k + 1 + n = k + (n + 1) by omega]
    · rw [List.replicate_succ, moves_cons_of_move hmove, hmoves]

/-- A canonical copy that agrees with a canonical memory on all of its bytes is that memory. -/
theorem eq_of_copied {m m' : Memory} {size : Nat} (hm : m.wf size = true) (hm' : m'.wf size = true)
    (h : ∀ j, j < size → m.read j = m'.read j) : m = m' := by
  refine Memory.ext_of_wf hm hm' fun a => ?_
  rcases Nat.lt_or_ge a size with ha | ha
  · exact h a ha
  · rw [Memory.read_outside hm ha, Memory.read_outside hm' ha]

theorem snap_eq_window_of_ok {c : Contexts} (hok : c.ok) (hcpu : c.cpu = .copyIn vramLen) :
    c.block.snap = c.block.window := by
  obtain ⟨-, hmem, hsnap, hcopy, -⟩ := ok_iff.1 hok
  rw [hcpu] at hcopy
  exact eq_of_copied hsnap (Memory.wf_slice hmem) fun j hj => (hcopy.2 j hj).trans (Memory.read_slice hj).symm

theorem tmp_eq_snap_of_ok {c : Contexts} {pitch : Nat} {fb : List Byte} {tmp : Memory} (hok : c.ok)
    (hstage : c.consumer = .copyOut pitch fb tmp vramLen) : tmp = c.block.snap := by
  obtain ⟨-, -, hsnap, -, hcopy⟩ := ok_iff.1 hok
  rw [hstage] at hcopy
  obtain ⟨-, hcopied, htmp⟩ := hcopy
  exact eq_of_copied htmp hsnap hcopied

/-- A TICK that has made its tests takes the snapshot and reports VBlank in 7171 moves of its own. -/
theorem moves_endOfScreen {c : Contexts} (hok : c.ok) (hrun : c.block.fault = none) (hcpu : c.cpu = .acquiring)
    (hfree : c.block.lock = .free) :
    c.moves (List.replicate 7171 .cpuAdvance) = some { c with
      block := ({ c.block with lock := .producer }.copyIn).finishEndOfScreen, cpu := .idle } := by
  have hacquire := move_cpuAdvance_acquires hrun hcpu hfree
  obtain ⟨m, d, rfl, hdok, hcopy⟩ := moves_copyIn (n := vramLen) (move_keeps_ok hok hacquire) hrun rfl (Nat.zero_add _).le
  have hsnap : m = c.block.window := snap_eq_window_of_ok hdok rfl
  rw [show 7171 = vramLen + 2 + 1 from rfl, List.replicate_succ, moves_cons_of_move hacquire, List.replicate_add,
    moves_append_of_moves hcopy]
  refine Eq.trans (moves_release_and_report ?_ rfl) ?_
  · exact hrun
  · rw [hsnap]
    rfl

/-- A GETFRAME that has the lock draws the snapshot in 7170 moves of its own. -/
theorem moves_getframe {c : Contexts} {pitch : Nat} {fb : List Byte} (hok : c.ok) (hrun : c.block.fault = none)
    (hstage : c.consumer = .copyOut pitch fb [] 0) :
    c.moves (List.replicate 7170 .consumerAdvance) = some { c with
      block := c.block.release.deliverFrame c.block.snap pitch fb, consumer := .idle } := by
  obtain ⟨m, d, rfl, hdok, hcopy⟩ := moves_copyOut (n := vramLen) hok hrun hstage (Nat.zero_add _).le
  have htmp := tmp_eq_snap_of_ok hdok rfl
  rw [show 7170 = vramLen + 2 from rfl, List.replicate_add, moves_append_of_moves hcopy]
  refine Eq.trans (moves_release_and_draw ?_ rfl) ?_
  · exact hrun
  · rw [htmp]

/-! ## The statements about whole operations -/

theorem start_ok_of_storesOk {s : State} (h : s.storesOk = true) : (Contexts.start s).ok := by
  obtain ⟨-, hmem, hsnap, -, hfree⟩ := storesOk_iff.1 h
  exact start_ok hmem hsnap hfree

theorem tickArm_eq_endOfScreen {s : State} {t : Nat} (h : tickArm t s = .endOfScreen) :
    s.quit = false ∧ t ≠ s.lastTime ∧ s.phase = .awaitingVBlank := by
  rcases tickArm_cases t s with ⟨-, harm⟩ | ⟨-, -, harm⟩ | ⟨-, -, -, harm⟩ | ⟨hquit, ht, hphase, -⟩
  case inr.inr.inr => exact ⟨hquit, ht, hphase⟩
  all_goals cases harm.symm.trans h

/-- Settles O57: the first move makes the tests and writes, the others take the snapshot, as the atomic TICK does. -/
theorem tickMoveByMoveIsTheAtomicTick : Obligations.TickMoveByMoveIsTheAtomicTick := by
  intro s u t hstores harm h
  obtain ⟨-, -, -, -, hfree⟩ := storesOk_iff.1 hstores
  have hrun : s.fault = none := effect_running (exec_next h) (by simp)
  have hissue : (Contexts.start s).move (.cpuIssue (.tick t)) =
      some { Contexts.start s with block := s.beginEndOfScreen t, cpu := .acquiring } := by
    simp [Contexts.move, Contexts.cpuIssue, Contexts.start, agentMay, hrun, harm]
  obtain ⟨hquit, ht, hphase⟩ := tickArm_eq_endOfScreen harm
  cases (exec_tick_endOfScreen hrun hquit ht hphase hfree).symm.trans h
  rw [moves_cons_of_move hissue,
    moves_endOfScreen (move_keeps_ok (start_ok_of_storesOk hstores) hissue) hrun rfl hfree]
  rfl

/-- Settles O58: the first move takes the lock, the others draw the snapshot, as the atomic GETFRAME does. -/
theorem getframeMoveByMoveIsTheAtomicGetframe : Obligations.GetframeMoveByMoveIsTheAtomicGetframe := by
  intro s u pitch fb hstores h
  obtain ⟨-, -, -, -, hfree⟩ := storesOk_iff.1 hstores
  obtain ⟨hrun, hbuffer, ⟨-, rfl⟩ | ⟨hheld, -⟩⟩ := exec_next h
  · have hissue : (Contexts.start s).move (.consumerIssue (.getframe pitch fb)) = some { Contexts.start s with
        block := { s with lock := .consumer }, consumer := .copyOut pitch fb [] 0 } := by
      simp [Contexts.move, Contexts.consumerIssue, Contexts.start, agentMay, hrun, hbuffer, hfree]
    rw [moves_cons_of_move hissue,
      moves_getframe (move_keeps_ok (start_ok_of_storesOk hstores) hissue) hrun rfl]
    rfl
  · exact absurd hfree hheld

/-- Settles O59: no stage of the end-of-screen arm after its tests reads the signal. -/
theorem tickInProgressOutlastsSetquit : Obligations.TickInProgressOutlastsSetquit := by
  intro c hok hcpu hconsumer hrun
  have hfree : c.block.lock = .free := by
    obtain ⟨howner, -⟩ := ok_iff.1 hok
    rw [hcpu, hconsumer] at howner
    exact (Option.some.inj howner).symm
  have hissue : c.move (.consumerIssue .setquit) =
      some { c with block := { c.block with quit := true }.respond .done } := by
    simp [Contexts.move, Contexts.consumerIssue, hconsumer, agentMay, exec_setquit hrun, completed]
  exact ⟨_, (moves_cons_of_move hissue _).trans (moves_endOfScreen (move_keeps_ok hok hissue) hrun hcpu hfree),
    rfl, rfl, rfl, rfl, rfl, fun i hi => Memory.read_slice hi⟩

end Sys2Proof.Machine
